-- ==== Sys2Proof/Word.lean ====
section
/-!
DEFINITION. The words of the machine: bytes, register words, the descriptors of the manual's tables and byte strings
(R8: byte order is little endian, bit 0 is the least significant bit).
-/
namespace Sys2Proof

/-- A byte. -/
abbrev Byte := BitVec 8

/-- A 32-bit register word: the registers of BAR0 are kept as such words (R338: accesses of 4 and 8 bytes). -/
abbrev Word := BitVec 32

/-- A 32-byte descriptor or entry. -/
abbrev Desc32 := BitVec 256

/-- A 64-byte descriptor or entry. -/
abbrev Desc64 := BitVec 512

/-- A 128-byte descriptor. -/
abbrev Desc128 := BitVec 1024

/-- A string of `len` bytes; byte `i` is bits `8i+7 .. 8i` of `val` (R8). -/
structure Blob where
  len : Nat
  val : Nat
  deriving DecidableEq, Repr

/-- The empty byte string. -/
def Blob.empty : Blob := { len := 0, val := 0 }

/-- The little-endian number in the `n` bytes at offset `off`; a byte past the end reads as 0. -/
def Blob.le (b : Blob) (off n : Nat) : Nat := (b.val >>> (8 * off)) % 2 ^ (8 * n)

/-- The byte string has no bits above its length. -/
def Blob.wf (b : Blob) : Bool := decide (b.val < 2 ^ (8 * b.len))

end Sys2Proof
end

