-- ==== Sys2Proof/Syntax.lean ====
section
/-!
DEFINITION. The commands of the block, one constructor per row of the opcode table, with their operands.
-/
namespace Sys2Proof

/-- A piece of compressed data that a packet carries, as the payload formats of R62 give it: a whole NAL unit, the first, a middle or the last fragment of one, or JPEG data. -/
inductive PieceKind where
  | whole | first | middle | last | raw
  deriving DecidableEq, Repr

/-- One piece of a packet's payload. -/
structure Piece where
  kind : PieceKind
  data : Blob
  deriving DecidableEq, Repr

/-- The network layer of an Ethernet frame (Table 3.3). -/
inductive NetKind where
  | ipv4 | ipv6 | avtp | other
  deriving DecidableEq, Repr

/-- The form of a frame's payload (Table 3.3): the packet types of RFC 6184 and RFC 7798, a packet of RFC 2435, and the AVTP format subtypes. -/
inductive PayloadForm where
  /-- RFC 6184: one NAL unit, STAP-A, FU-A; then the types that are not accepted. -/
  | h264Single | stapA | fuA | stapB | mtap16 | mtap24 | fuB
  /-- RFC 7798: one NAL unit, aggregation packet, fragmentation unit; one that carries DONL or DOND; PACI. -/
  | hevcSingle | hevcAggregate | hevcFragment | hevcDon | paci
  /-- RFC 2435. -/
  | rtpJpeg
  /-- AVTP compressed video: MJPEG, H.264, JPEG 2000. -/
  | avtpMjpeg | avtpH264 | avtpJpeg2000
  /-- Anything else. -/
  | other
  deriving DecidableEq, Repr

/-- An Ethernet frame as the MAC and the parser see it (R60 to R62): the header layouts are those of the standards that the manual names. -/
structure EthFrame where
  /-- Bytes of the frame, its FCS check, and whether it is a PAUSE frame. -/
  bytes : Nat
  fcsOk : Bool
  isPause : Bool
  /-- 802.1Q tags, 802.3 length/LLC framing, VLAN ID of the tag. -/
  tags : Nat
  llc : Bool
  vlan : BitVec 12
  net : NetKind
  /-- IPv4 with IHL 5, or IPv6 without extension headers; a fragment; the IPv4 header checksum holds; UDP, its checksum field is zero, and the checksum holds. -/
  plainHeader : Bool
  fragment : Bool
  ipSumOk : Bool
  udp : Bool
  udpSumZero : Bool
  udpSumOk : Bool
  src : BitVec 128
  dst : BitVec 128
  udpDst : BitVec 16
  rtpVersion : BitVec 2
  payloadType : BitVec 7
  ssrc : BitVec 32
  /-- RTP sequence number, or AVTP sequence_num in the low 8 bits. -/
  seq : BitVec 16
  /-- RTP or AVTP timestamp. -/
  stamp : BitVec 32
  /-- RTP marker, or the M bit of the AVTP payload header. -/
  marker : Bool
  streamId : BitVec 64
  streamValid : Bool
  payload : PayloadForm
  pieces : List Piece
  deriving DecidableEq, Repr

/-- What the decoder reads of a coded picture before its first row: its parameter sets and picture header, in the terms of R77 to R79, R90 and R91 (the bitstream syntaxes are those of the standards that Table 4.1 names). -/
structure PicInfo where
  /-- pic_type of Table 4.4: 0 IDR or IRAP, 1 P, 2 B, 3 JPEG, 4 other intra. -/
  picType : BitVec 4
  cra : Bool
  rasl : Bool
  poc : BitVec 32
  isRef : Bool
  /-- Order counts that the picture names as references, and those that stay references after it. -/
  refs : List (BitVec 32)
  keep : List (BitVec 32)
  /-- None of Table 4.2 is used. -/
  supported : Bool
  width : BitVec 16
  height : BitVec 16
  codedW : BitVec 16
  codedH : BitVec 16
  /-- Reference pictures that the picture needs. -/
  needRefs : Nat
  format : BitVec 4
  rowHeight : BitVec 8
  deriving DecidableEq, Repr

/-- A block row as the reconstruction island finishes it: the cause of Table 4.7 by which a block of it was not decoded, its luma lines and its chroma lines without padding. -/
structure RowData where
  lost : Option (Fin 4)
  luma : Blob
  chroma : Blob
  deriving DecidableEq, Repr

/-- What the sequencer knows of a tile's layer beside the 128-byte descriptor. The manual gives these in the model package (Tables 15.17, 8.2) and in the layout rules of chapter 08, and names no descriptor field for them (log entry 21). -/
structure LayerFacts where
  /-- Span of a weight group along K: 64 or 128; 0 the whole output channel (R165). -/
  span : Nat := 64
  cin : Nat := 16
  cout : Nat := 32
  /-- Parameters that go with the weights (Table 15.17): FP32 bias per output channel, FP16 γ then β, or the anchor tensor. -/
  aux : Blob := { len := 0, val := 0 }
  /-- Rows of one segment without its padding (R187). -/
  segRows : Nat := 0
  /-- Device address of the second input (ELTWISE, MATMUL_RT operand B, ROI_ALIGN boxes, class logits' column spectrum of FFT_INV_B), its blocks per position and positions per sample, and whether B is held transposed. -/
  in2 : Nat := 0
  in2Cb : Nat := 1
  in2Rows : Nat := 1
  in2Trans : Bool := false
  /-- Frequency path (R190): tiles per sample across and down, the bin column v of the group. -/
  tx : Nat := 1
  ty : Nat := 1
  bin : Nat := 0
  /-- Samples of the tensor. -/
  samples : Nat := 1
  /-- Embedding tensor of the candidates and its grid width (Table 10.1). -/
  emb : Nat := 0
  embW : Nat := 0
  deriving DecidableEq, Repr

/-- A tile that a planner pair has cut: its core, its descriptor, and its layer's facts. -/
structure PlanTile where
  core : Fin 8
  desc : Desc128
  facts : LayerFacts := {}
  deriving DecidableEq, Repr

/-- A fusion group of a plan: how many operators it takes, in the stage's order, and the output columns of the strips it runs in; 0 whole rows (R202, R204). -/
structure PlanGroup where
  ops : Nat
  strip : Nat := 0
  deriving DecidableEq, Repr

/-- A planner pair's cut of a job: its tiles, each core's in the order of their descriptors, and its fusion groups. -/
structure JobCut where
  tiles : List PlanTile := []
  groups : List PlanGroup := []
  deriving DecidableEq, Repr

/-- What a model's output gives for one batch sample, by record type (Table 10.6). -/
inductive OutBody where
  /-- Nothing but the producer's mark (R240). -/
  | mark
  /-- LANDMARKS: points, x and y in FP16. -/
  | landmarks (points : List (BitVec 16 × BitVec 16))
  /-- CLASS_SCORES: first class, scores in FP16. -/
  | scores (first : BitVec 16) (values : List (BitVec 16))
  /-- EMBEDDING: the vector in FP32, before it is normalised. -/
  | embedding (values : List (BitVec 32))
  /-- EVENT: model-defined type, severity, start TB, value in FP32, data. -/
  | event (typ severity : BitVec 8) (start : BitVec 64) (value : BitVec 32) (data : BitVec 160)
  /-- TENSOR_REF: the handle of the buffer that holds the tile's output (R260). -/
  | tensorRef (handle : BitVec 28)
  deriving DecidableEq, Repr

/-- Do a body's counts and type lie in the ranges of Table 10.6? -/
def OutBody.ok (o : OutBody) : Bool :=
  match o with
  | .landmarks l => decide (1 ≤ l.length ∧ l.length ≤ 128)
  | .scores _ l => decide (1 ≤ l.length ∧ l.length ≤ 256)
  | .embedding l => decide (1 ≤ l.length ∧ l.length ≤ 256)
  | .event typ _ _ _ _ => decide (1 ≤ typ.toNat ∧ typ.toNat ≤ 0xEF)
  | _ => true

/-- A record that a model's output gives for one batch sample (Tables 15.16, 10.6), and whether it is the producer's last record of the frame. -/
structure OutRec where
  sample : Nat
  body : OutBody
  done : Bool := false
  deriving DecidableEq, Repr

/-- What host software writes to a function's device control with its power state D0: Bus Master Enable and Enable Relaxed Ordering (R332, R341). -/
structure FnControl where
  bme : Bool
  relaxed : Bool := true
  deriving DecidableEq, Repr

/-- Who reads a memory word, as Table 12.3 tells readers apart. -/
inductive MemReader where
  /-- A core's activation feeder or vector engine; its weight fill, weight feed unit, and readers of the accumulator. -/
  | feeder (core : Fin 8)
  | weight (core : Fin 8)
  | acc (core : Fin 8)
  /-- Planner tensor load, with the device address of the destination block. -/
  | tensorLoad (dest : Nat)
  | frontEnd (stream : Nat)
  /-- A decoder: its stream, and whether the checker reads. -/
  | decoder (stream : Nat) (checker : Bool)
  | tracker
  /-- The halyard network reading the oldest entry of an internal queue. -/
  | queueEntry (q : Nat)
  /-- A control core: pair 0 PA, 1 PB, 2 SM, 3 SP. -/
  | control (pair : Fin 4)
  /-- The copy channel of a partition. -/
  | copy
  | scrubber
  /-- A reader that Table 12.3 does not name. -/
  | other
  deriving DecidableEq, Repr

/-- A request at a memory bank or at DRAM (R271, R277, R294): its partition tag, the holder name of its requester (R260), class, address, length and data of a write. -/
structure MemReq where
  part : BitVec 4
  holder : BitVec 8
  dma : Bool := false
  write : Bool := false
  reader : MemReader := .other
  addr : Nat
  len : Nat
  data : Nat := 0
  deriving DecidableEq, Repr

/-- What a start or a restart meets outside the machine and in its fuses, phase by phase (R373 to R380, Tables 16.3, 16.6). -/
structure StartFacts where
  /-- A corrected fuse bit; an uncorrectable word outside calibration; uncorrectable calibration sources: bit 0 factory, 1 row 0, 2 row 1. -/
  fuseCe : Bool := false
  fuseUe : Bool := false
  calUe : BitVec 3 := 0
  /-- Rate and width to which the link trained (MGMT_LINK). -/
  linkRate : BitVec 4 := 4
  linkWidth : BitVec 6 := 8
  /-- What the flash gives at pass 1 (none: it does not respond) and at pass 2 (R375, R379). -/
  flash : Option Blob := none
  flash2 : Blob := { len := 0, val := 0 }
  /-- Channels that train, and what each lane shows (DDR_TRAIN_LANE, DDR_TRAIN_VREF by 9 × channel + lane). -/
  trained : BitVec 4 := 0xF
  lanes : List Nat := []
  vref : List Nat := []
  /-- The control pairs report ready within 10 ms (R380). -/
  ctrlReady : Bool := true
  /-- Injection groups that fail (Table 13.8). -/
  injFail : BitVec 10 := 0
  deriving DecidableEq, Repr

/-- A new error event of the handshake in which a sticky bit is cleared (R440): the unit, its bit, and the fields of its capture. -/
structure EventFacts where
  unit : BitVec 8
  bit : Fin 32
  part : Option (Fin 16) := none
  aux : BitVec 8 := 0
  detail : BitVec 16 := 0
  addr : BitVec 64 := 0xFFFFFFFFFFFFFFFF
  deriving DecidableEq, Repr

/-- The commands: one constructor per row of the opcode table. What the world outside a command fixes (what a sensor reads, what a packet carries, whether a comparison agrees) is an operand. -/
inductive Instr where
  /-- TELLTALE_READ: The tell-tale pairs of the 102 islands, in island order (R26). -/
  | telltaleRead (rs : List (BitVec 16 × BitVec 16))
  /-- FUSEE_LOOP_TICK: One period of the fusee loop, with the beat rate that the planner needs (R27). -/
  | fuseeLoopTick (beats : BitVec 16)
  /-- AVS_FRAME_FAILURE: A frame of a rail (0 VDD_ARRAY, 1 VDD_LOGIC) fails (R31). -/
  | avsFrameFailure (rail : Fin 2)
  /-- AVS_RETRY: The retry of a rail, and whether it succeeds (R31). -/
  | avsRetry (rail : Fin 2) (ok : Bool)
  /-- AVS_STATUS_FAULT: The regulator of a rail reports a fault (R31). -/
  | avsStatusFault (rail : Fin 2)
  /-- RAIL_DEVIATION: The monitor has read `mv` on a rail for 100 µs (R31). -/
  | railDeviation (rail : Fin 2) (mv : BitVec 16)
  /-- RAIL_LOW: The monitor reads `mv` on a rail (R31). -/
  | railLow (rail : Fin 2) (mv : BitVec 16)
  /-- AVS_FROZEN_STATUS_RETRY: The status read of a frozen link, and whether it succeeds (R37). -/
  | avsFrozenStatusRetry (rail : Fin 2) (ok : Bool)
  /-- POWER_DOMAIN_REQUEST: A domain is to be off 0, in retention 1 or on 2 (R34). -/
  | powerDomainRequest (domain : Fin 253) (state : Fin 3)
  /-- POWER_DOMAIN_TRANSITION_DONE: A domain ends its transition (R33). -/
  | powerDomainTransitionDone (domain : Fin 253)
  /-- REEFING_EVALUATION: Voltage and current of the two rails as the regulators report them, in mV and mA (R36, R39). -/
  | reefingEvaluation (mvA maA mvL maL : BitVec 32)
  /-- PWT_POWER_CAP_WRITE: The PF writes PWT_POWER_CAP (R38). -/
  | pwtPowerCapWrite (v : Word)
  /-- TEMPERATURE_SENSOR_READ: The readings of the 12 sensors in 1/16 °C, in sensor order (R41). -/
  | temperatureSensorRead (ts : List (BitVec 16))
  /-- SENSOR_FAIL: A sensor has differed from the median for 1 ms (R41). -/
  | sensorFail (k : Fin 12)
  /-- THERMAL_SHUTDOWN: The shutdown comparator trips (R42). -/
  | thermalShutdown
  /-- TB_COPY_DISAGREE: A copy of TB disagrees at the vote (R43). -/
  | tbCopyDisagree (copy : Fin 3)
  /-- TB_NO_MAJORITY: No two copies agree (R43). -/
  | tbNoMajority
  /-- REFCLK_LOSS: No REFCLK edge for 200 ns (R43). -/
  | refclkLoss
  /-- TB_ADJ_RATE_WRITE: The PF writes TB_ADJ_RATE (R45). -/
  | tbAdjRateWrite (v : Word)
  /-- TB_ADJ_OFFSET_WRITE: The PF writes TB_ADJ_OFFSET (R45). -/
  | tbAdjOffsetWrite (v : Word)
  /-- TB_SET_WRITE: The PF writes TB_SET (R45). -/
  | tbSetWrite (v : BitVec 64)
  /-- TB_SLEW_COMPLETE: TB_SLEW_REMAIN reaches 0 (R45). -/
  | tbSlewComplete
  /-- TIME_PPS_EDGE: A rising edge on TIME_PPS (R46). -/
  | timePpsEdge
  /-- STREAM_START: MGMT_MBX_CMD of a function: STREAM_START with its tag; the stream stands in the arguments (R51). -/
  | streamStart (f : Fin 16) (tag : BitVec 8)
  /-- STREAM_STOP: STREAM_STOP in a function's mailbox (R51). -/
  | streamStop (f : Fin 16) (tag : BitVec 8)
  /-- STREAM_RETURN_IDLE: The last admitted frame of a stopping stream has passed (R51). -/
  | streamReturnIdle (st : Fin 96)
  /-- CSI2_FRAME_START: Frame Start with its frame number; `fixed`: its header had a bit corrected; `dup`: the duplicated decode of a class S stream differs (R57, R314). -/
  | csi2FrameStart (port : Fin 8) (vc : Fin 16) (fn : BitVec 16) (fixed dup : Bool)
  /-- CSI2_LINE_PACKET: A long packet: data type, word count, whether its CRC holds, its payload (R54). -/
  | csi2LinePacket (port : Fin 8) (vc : Fin 16) (dt : BitVec 6) (wc : BitVec 16) (crcOk fixed : Bool) (data : Blob) (dup : Bool)
  /-- CSI2_EMBEDDED_PACKET: An embedded-data line (R58). -/
  | csi2EmbeddedPacket (port : Fin 8) (vc : Fin 16) (crcOk fixed : Bool) (data : Blob)
  /-- CSI2_FRAME_END: Frame End (R59). -/
  | csi2FrameEnd (port : Fin 8) (vc : Fin 16) (fixed : Bool)
  /-- CSI2_HEADER_UNCORRECTABLE: A packet header with a multi-bit error (R53). -/
  | csi2HeaderUncorrectable (port : Fin 8)
  /-- CSI2_LANE_SYNC_ERROR: A start-of-transmission or sync error of a lane (R53). -/
  | csi2LaneSyncError (port : Fin 8)
  /-- ETH_LINK_CHANGE: An Ethernet link comes up or goes down, at rate code 0 10, 1 5, 2 2.5, 3 1 Gb/s (R60). -/
  | ethLinkChange (port : Fin 2) (up : Bool) (rate : Fin 4)
  /-- ETH_FRAME_RECEIVE: An Ethernet frame arrives (R62). -/
  | ethFrameReceive (port : Fin 2) (fr : EthFrame)
  /-- PACKET_DECLARED_LOST: The jitter window of a stream's oldest waiting packet has passed (R66). -/
  | packetDeclaredLost (st : Fin 96)
  /-- BP_DECISION_AT_VCL_HEADER: Ingress has read the first VCL NAL header of a held unit: a random access picture, a reference picture (R73). -/
  | bpDecisionAtVclHeader (st : Fin 96) (irap isRef : Bool)
  /-- ING_ETH_CLASS_WRITE: The PF writes a word of a classification entry (R64). -/
  | ingEthClassWrite (n : Fin 128) (word : Fin 16) (v : Word)
  /-- PUSH_AU: The next entry of a push queue is fetched and reads `e` (R70). -/
  | pushAu (st : Fin 96) (e : Desc64)
  /-- PUSH_AU_READ_DONE: The DMA read of pushed data ends, with an error where not `ok` (R70). -/
  | pushAuReadDone (st : Fin 96) (ok : Bool) (data : Blob)
  /-- PICTURE_START: A decoder takes a stream's next access unit, whose picture header reads `info` (R81). -/
  | pictureStart (st : Fin 64) (info : PicInfo)
  /-- BLOCK_ROW_RECONSTRUCTED: Engine `d` has finished rows in `ns` ns (R85, R86). -/
  | blockRowReconstructed (d : Fin 4) (ns : BitVec 32) (rows : List RowData)
  /-- ROW_LIMIT_EXPIRY: The row on engine `d` exceeds row_limit_us (R88). -/
  | rowLimitExpiry (d : Fin 4)
  /-- PICTURE_BUDGET_EXPIRY: A picture's budget runs out (R92). -/
  | pictureBudgetExpiry (st : Fin 64)
  /-- DUAL_ROW_CRC_COMPARE: The safety island compares the next row of both engines (R96). -/
  | dualRowCrcCompare (st : Fin 64)
  /-- CHECKER_LAG: The checker is more than a frame period behind (R97). -/
  | checkerLag (st : Fin 64)
  /-- ENC_SESS_DESC_WRITE: A function writes a word of a session descriptor (R106). -/
  | encSessDescWrite (f n word : Fin 16) (v : Word)
  /-- START: A function writes START to a session's ENC_SESS_CMD (R102). -/
  | start (f n : Fin 16)
  /-- STOP: STOP (R102). -/
  | stop (f n : Fin 16)
  /-- TRIGGER: TRIGGER (R104). -/
  | trigger (f n : Fin 16)
  /-- SNIPPET_TRIGGER_EVENT: An EVENT record of a stream with an event type (R104). -/
  | snippetTriggerEvent (st : Fin 96) (typ : BitVec 8)
  /-- ENC_SOURCE_PICTURE: A source picture of a session (R101). -/
  | encSourcePicture (n : Fin 16)
  /-- ENC_ROW_START: Room for a session's next row (R102). -/
  | encRowStart (n : Fin 16)
  /-- ENC_SLICE_CODED: The row in progress is coded as `data`, whose coding the manual leaves to the engine (R100, R104). -/
  | encSliceCoded (n : Fin 16) (data : Blob)
  /-- POST_WINDOW_EXPIRY: The post window of a session has passed (R104). -/
  | postWindowExpiry (n : Fin 16)
  /-- SOURCE_LOST: The source of a session is gone (R106). -/
  | sourceLost (n : Fin 16)
  /-- VIEW_DESCRIPTOR_WRITE: The PF writes a word of a view descriptor (R107). -/
  | viewDescriptorWrite (st : Fin 96) (view : Fin 4) (word : Fin 16) (v : Word)
  /-- FRONT_END_FRAME_START: A front end begins the next frame of a stream (R123). -/
  | frontEndFrameStart (st : Fin 96)
  /-- BAND_START: A front end begins its next ready band (R115). -/
  | bandStart (fe : Fin 4)
  /-- BAND_DONE: The band of a front end is written (R117). -/
  | bandDone (fe : Fin 4)
  /-- BAND_LIMIT_EXPIRY: The band of a front end exceeds its limit (R120). -/
  | bandLimitExpiry (fe : Fin 4)
  /-- BAND_CHECK_COMPARE: The CRCs of both front ends agree or differ (R121). -/
  | bandCheckCompare (fe : Fin 4) (agree : Bool)
  /-- TILE_DESCRIPTOR_WRITE: A planner pair writes a descriptor to a core (R147). -/
  | tileDescriptorWrite (core : Fin 8) (pair : Fin 2) (d : Desc128) (facts : LayerFacts)
  /-- ESCAPEMENT_SLOT_START: A slot begins; per core, the partitions for which the planner holds a ready tile (R221). -/
  | escapementSlotStart (ready : List (BitVec 16))
  /-- TILE_ISSUE: The head descriptor of a core enters phase 1 (R211). -/
  | tileIssue (core : Fin 8)
  /-- TILE_REJECT_RESPONSE: The planner takes its oldest reject (R213). -/
  | tileRejectResponse
  /-- TILE_WAITS_MET: The waits of the tile in phase 2 are met (R210). -/
  | tileWaitsMet (core : Fin 8)
  /-- WEIGHT_LOAD_DONE: A weight-stage buffer is filled (R136). -/
  | weightLoadDone (core : Fin 8) (b : Fin 2)
  /-- TILE_BEATS_DONE: The last beat of a tile drains; ns for which its beats waited on feeders (R148). -/
  | tileBeatsDone (core : Fin 8) (stall : BitVec 32)
  /-- WAVEFRONT_MISMATCH: A cube finds differing indices (R132). -/
  | wavefrontMismatch (core : Fin 8) (arr : Fin 4) (row col : Fin 8)
  /-- SEQUENCER_PARITY_ERROR: A parity error of the tile in a phase, 2 to 4 (R149). -/
  | sequencerParityError (core : Fin 8) (phase : Fin 5)
  /-- EPILOGUE_DONE: The vector engine finishes; the records that the tile's model hands over (R143). -/
  | epilogueDone (core : Fin 8) (outs : List OutRec)
  /-- TILE_CLOSE: The oldest tile of phase 5 closes (R150). -/
  | tileClose (core : Fin 8)
  /-- HALO_WRITE: The next write of a core's link arrives, at the next core or the one before (R151). -/
  | haloWrite (core : Fin 8) (fwd : Bool)
  /-- TILE_WATCHDOG_EXPIRY: A tile runs for 4 × est (R220). -/
  | tileWatchdogExpiry (core : Fin 8)
  /-- STEP_START: A step period of a partition begins (R226). -/
  | stepStart (p : Fin 16)
  /-- JOB_PLAN: A pair plans job `num`: the run-time extents, whether the output fits, the tiles and fusion groups that it cuts, and their signals (R206). -/
  | jobPlan (p : Fin 16) (num : Nat) (ext : List Nat) (fits : Bool) (cut : JobCut) (sigs : List (Nat × Nat))
  /-- TRACKER_FRAME: A tracker takes the next frame of a stream (R232). -/
  | trackerFrame (st : Fin 96)
  /-- TRACKER_COMPARE: The CRCs of both trackers agree or differ (R231). -/
  | trackerCompare (st : Fin 96) (agree : Bool)
  /-- TRACKER_STAGE_LIMIT: A class S frame exceeds s_trk_limit_us (R316). -/
  | trackerStageLimit (st : Fin 96)
  /-- TRACKER_DESC_WRITE: The PF writes a word of a tracker descriptor (R231). -/
  | trackerDescWrite (st : Fin 96) (word : Fin 16) (v : Word)
  /-- RECORD_STAGE: A port takes a producer's record (R241). -/
  | recordStage (port : Fin 18)
  /-- COLLECTOR_TURN: The next port's turn (R242). -/
  | collectorTurn
  /-- FRAME_RELEASE: The shadow CRC of a class S frame agrees or differs (R244). -/
  | frameRelease (st : Fin 96) (agree : Bool)
  /-- FRAME_CLOSE_TIMEOUT: TB passes the close limit of a frame (R244). -/
  | frameCloseTimeout (st : Fin 96)
  /-- RING_STALL_TIMEOUT: A record has waited for room beyond stall_us (R245). -/
  | ringStallTimeout (q : Fin 16384)
  /-- COL_STRM_QUERY_WRITE: The PF writes a frame counter to COL_STRM_QUERY (R244). -/
  | colStrmQueryWrite (st : Fin 96) (v : Word)
  /-- SIGNAL: A device unit, or a function, signals an object (R250). -/
  | signal (who : Option (Fin 16)) (n : BitVec 16) (amt : BitVec 32)
  /-- RESET: A function resets an object (R250). -/
  | reset (f : Fin 16) (n : BitVec 16)
  /-- WATCH_ARM: A function writes word 0 of a watch with armed 1 (R252). -/
  | watchArm (f : Fin 16) (w : Fin 4096) (v : Word)
  /-- WATCH_COPY_DONE: The DMA of a watch's COPY ends; what a host read returned (R253). -/
  | watchCopyDone (w : Fin 4096) (ok : Bool) (data : Blob)
  /-- QUEUE_DESCRIPTOR_WRITE: A function writes a word of a queue descriptor (R254). -/
  | queueDescriptorWrite (f : Fin 16) (q : Fin 16384) (word : Fin 16) (v : Word)
  /-- DOORBELL_WRITE: A function writes a doorbell (R256). -/
  | doorbellWrite (f : Fin 16) (q : Fin 16384) (v : Word)
  /-- RESERVATION: A holder of a partition reserves up to 8 pairs of pool and count (R261). -/
  | reservation (tag : Fin 16) (holder : BitVec 8) (pairs : List (Fin 256 × BitVec 16))
  /-- RESERVATION_GRANT: A waiting reservation can be granted (R261). -/
  | reservationGrant
  /-- RESERVATION_AGED: Reservations have waited age_us (R261). -/
  | reservationAged
  /-- SHARE: A holder adds a holder to a buffer and names its last owner (R262). -/
  | share (tag : Fin 16) (holder : BitVec 8) (h : Word) (newHolder last : BitVec 8)
  /-- DROP: A holder removes its hold (R262). -/
  | drop (tag : Fin 16) (holder : BitVec 8) (h : Word)
  /-- FREE: The last owner frees a buffer (R262). -/
  | free (tag : Fin 16) (holder : BitVec 8) (h : Word)
  /-- POOL_THRESHOLD_WRITE: The PF writes bytes 24 to 27 of a pool descriptor (R259). -/
  | poolThresholdWrite (k : Fin 256) (v : Word)
  /-- POOL_BUF_QUERY_WRITE: A function writes a handle to POOL_BUF_QUERY (R260). -/
  | poolBufQueryWrite (f : Fin 16) (h : Word)
  /-- MEMORY_ACCESS: A request at a bank or at DRAM, and the bits that have flipped since, by word (R277). -/
  | memoryAccess (flips : List (Nat × BitVec 72)) (q : MemReq)
  /-- DMA_STARVE: A DMA-class request of a holder has waited beyond limit_us at a location (R272). -/
  | dmaStarve (holder index : BitVec 8)
  /-- MEM_DMA_RESUME_WRITE: A function writes MEM_DMA_RESUME (R281). -/
  | memDmaResumeWrite (f : Fin 16) (v : Word)
  /-- ALERT_N: A channel's ALERT_n; a second one fails the requests in hand (R285). -/
  | alertN (ch : Fin 4) (again : Bool) (qs : List MemReq)
  /-- DDR_REFRESH: The refresh interval of a channel expires (R286). -/
  | ddrRefresh (ch : Fin 4)
  /-- SELF_REFRESH_ENTRY: A rank has been idle for sr_idle_us (R287). -/
  | selfRefreshEntry (ch : Fin 4) (rank : Fin 2)
  /-- ZQ_CALIBRATION: The ZQ interval of a rank expires (R287). -/
  | zqCalibration (ch : Fin 4) (rank : Fin 2)
  /-- SCRUB_START: The PF writes start to MEM_SCRUB_CMD (R290). -/
  | scrubStart
  /-- SCRUB_ABORT: The PF writes abort; the bytes of the range that the pass has done by then (R292). -/
  | scrubAbort (done : BitVec 48)
  /-- SCRUB_PASS_DONE: The pass reaches its end (R290). -/
  | scrubPassDone
  /-- DETECTED_FAULT: The safety island takes the oldest report (R318). -/
  | detectedFault
  /-- CONTROL_PAIR_MISMATCH: A lockstep mismatch of PA 0, PB 1, SM 2, SP 3 (R310). -/
  | controlPairMismatch (pair : Fin 4)
  /-- HEARTBEAT_MISSING: The heartbeat of PA, PB or SM is missing (R310). -/
  | heartbeatMissing (pair : Fin 3)
  /-- WAIT_AUDIT: SM audits the tiles of phase 2 (R311). -/
  | waitAudit
  /-- SELF_TEST_CHUNK: A chunk of a resource's self-test, and whether it passes (R325). -/
  | selfTestChunk (r : Fin 41) (ok : Bool)
  /-- TEST_OVERDUE: A resource's pass is overdue (R326). -/
  | testOverdue (r : Fin 41)
  /-- FAULT_N_TEST_WRITE: The PF writes SAF_CTRL (R318). -/
  | faultNTestWrite (v : Word)
  /-- PARTITION_PROCESSING_START: What lets a partition process: a write of VF Enable with NumVFs by the PF, of Bus Master Enable with Enable Relaxed Ordering, or none (R332, R341). -/
  | partitionProcessingStart (p : Fin 16) (vfs : Option (Fin 16)) (ctl : Option FnControl)
  /-- PARTITION_PROCESSING_STOP: A condition fails: a write of VF Enable with NumVFs by the PF, or another (R332). -/
  | partitionProcessingStop (p : Fin 16) (vfs : Option (Fin 16))
  /-- UNSUPPORTED_REQUEST: A request of a kind of Table 14.5; `posted`: it expects no completion, of kind 6 (R340). -/
  | unsupportedRequest (f : Fin 16) (kind : Fin 9) (bar : Fin 4) (addr : BitVec 64) (posted : Bool)
  /-- REGISTER_WRITE: A function writes bytes at an offset of BAR0 or BAR2, coded 0 and 1 (R338). -/
  | registerWrite (f : Fin 16) (bar : Fin 2) (o : BitVec 28) (data : Blob)
  /-- MSIX_UNMASK: A function clears the mask bit of a vector (R339). -/
  | msixUnmask (f : Fin 16) (v : Fin 2048)
  /-- BUS_MASTER_ENABLE_CLEAR: Bus Master Enable falls, or the function enters D3hot (R332). -/
  | busMasterEnableClear (f : Fin 16) (d3 : Bool)
  /-- POWER_ON: POR_N is released; the straps BOOT_SRC and I2C_ADDR (R371). -/
  | powerOn (src addr : BitVec 2)
  /-- PERST_N_ASSERT: PERST_N is asserted (R342). -/
  | perstNAssert
  /-- COLD_START: Reset is released and a cold start runs; what it meets (R378). -/
  | coldStart (t : StartFacts)
  /-- HOT_RESET: A hot reset, or link down (R342). -/
  | hotReset (linkDown : Bool)
  /-- PF_FLR: A function-level reset of the PF (R322). -/
  | pfFlr
  /-- VF_FLR: A function-level reset of a VF (R343). -/
  | vfFlr (f : Fin 16)
  /-- RESTART: The restart runs; what it meets, and the cause of a fault detected meanwhile (R388). -/
  | restart (t : StartFacts) (fault : Option (BitVec 8))
  /-- POWER_OFF: The rails fall (R393). -/
  | powerOff
  /-- POR_N_ASSERT: POR_N falls while the rails stay up (R372). -/
  | porNAssert
  /-- NOP: NOP (R345). -/
  | nop (f : Fin 16) (tag : BitVec 8)
  /-- GET_INFO: GET_INFO (R345). -/
  | getInfo (f : Fin 16) (tag : BitVec 8)
  /-- LOAD_MODEL: LOAD_MODEL: whether the package reads without an error completion, and what the reads return (R369). -/
  | loadModel (f : Fin 16) (tag : BitVec 8) (ok : Bool) (b : Blob)
  /-- UNLOAD_MODEL: UNLOAD_MODEL (R345). -/
  | unloadModel (f : Fin 16) (tag : BitVec 8)
  /-- BIND: BIND (R225). -/
  | bind (f : Fin 16) (tag : BitVec 8)
  /-- UNBIND: UNBIND (R225). -/
  | unbind (f : Fin 16) (tag : BitVec 8)
  /-- RESTRUCTURE: RESTRUCTURE: the image as its read returns it (R365). -/
  | restructure (f : Fin 16) (tag : BitVec 8) (ok : Bool) (b : Blob)
  /-- CAL_COMMIT: CAL_COMMIT, and whether the read-back compares (R386). -/
  | calCommit (f : Fin 16) (tag : BitVec 8) (ok : Bool)
  /-- SELF_TEST_FULL: SELF_TEST_FULL, and the resources that fail (R345). -/
  | selfTestFull (f : Fin 16) (tag : BitVec 8) (fails : BitVec 41)
  /-- SUPPLY_IMAGE: SUPPLY_IMAGE: the image as its two reads return it, and what the start then meets (R376, R379). -/
  | supplyImage (f : Fin 16) (tag : BitVec 8) (t : StartFacts) (ok : Bool) (b b2 : Blob)
  /-- ATTEST: ATTEST (R405). -/
  | attest (f : Fin 16) (tag : BitVec 8)
  /-- JTAG_CHALLENGE: JTAG_CHALLENGE (R407). -/
  | jtagChallenge (f : Fin 16) (tag : BitVec 8)
  /-- JTAG_RESPONSE: JTAG_RESPONSE (R408). -/
  | jtagResponse (f : Fin 16) (tag : BitVec 8)
  /-- LONG_COMMAND_END: The command of a mailbox ends (R345). -/
  | longCommandEnd (f : Fin 16)
  /-- JOB: The next entry of a partition's job queue is fetched and reads `e` (R348). -/
  | job (p : Fin 16) (e : Desc64)
  /-- ROI_LIST_FETCH: The next entry of a stream's ROI queue is fetched and reads `e` (R122). -/
  | roiListFetch (st : Fin 96) (e : Desc64)
  /-- SUBMISSION_FETCH_ERROR: A fetch of a submission queue ends in error (R347). -/
  | submissionFetchError (q : Fin 16384)
  /-- ECRC_CHECK_FAILURE: A TLP for a function fails its ECRC check (R353). -/
  | ecrcCheckFailure (f : Fin 16)
  /-- SMBUS_READ_STATUS: Code 0x00 (R351). -/
  | smbusReadStatus
  /-- SMBUS_READ_FAULT_CAUSE: Code 0x01 (R351). -/
  | smbusReadFaultCause
  /-- SMBUS_READ_TEMP_MAX: Code 0x02 (R351). -/
  | smbusReadTempMax
  /-- SMBUS_READ_TEMP_SENSOR: Codes 0x03 to 0x0E (R351). -/
  | smbusReadTempSensor (k : Fin 12)
  /-- SMBUS_READ_POWER_NOW: Code 0x10 (R351). -/
  | smbusReadPowerNow
  /-- SMBUS_READ_POWER_CAP: Code 0x11 (R351). -/
  | smbusReadPowerCap
  /-- SMBUS_READ_VDD_ARRAY: Code 0x12 (R351). -/
  | smbusReadVddArray
  /-- SMBUS_READ_VDD_LOGIC: Code 0x13 (R351). -/
  | smbusReadVddLogic
  /-- SMBUS_READ_REEF_STATE: Code 0x14 (R351). -/
  | smbusReadReefState
  /-- SMBUS_READ_TB: Code 0x18 (R351). -/
  | smbusReadTb
  /-- SMBUS_READ_ID: Code 0x20 (R351). -/
  | smbusReadId
  /-- SMBUS_READ_FAULT_RECORD: Code 0x21 (R351). -/
  | smbusReadFaultRecord
  /-- SMBUS_RESET_ARM: Code 0xF0 with a byte (R352). -/
  | smbusResetArm (v : BitVec 8)
  /-- SMBUS_RESET_REQUEST: Code 0xF1 with a byte (R352). -/
  | smbusResetRequest (v : BitVec 8)
  /-- SEC_CAL_SHADOW_WRITE: The PF writes a calibration shadow register (R384). -/
  | secCalShadowWrite (k : Fin 512) (v : Word)
  /-- REVOKE_SLOT: The PF writes REVOKE_SLOT to SEC_FUSE_CMD (R400). -/
  | revokeSlot (slot : Fin 4) (confirm : BitVec 16)
  /-- ADVANCE_ROLLBACK: ADVANCE_ROLLBACK (R400). -/
  | advanceRollback (confirm : BitVec 16)
  /-- DISABLE_JTAG: DISABLE_JTAG (R400). -/
  | disableJtag (confirm : BitVec 16)
  /-- FUSE_BURN_COMPLETE: A burn ends, and whether its read-back compares (R400). -/
  | fuseBurnComplete (ok : Bool)
  /-- JTAG_CHALLENGE_EXPIRY: A challenge reaches 60 s of TB (R407). -/
  | jtagChallengeExpiry
  /-- SEC_JTAG_RELOCK_WRITE: The PF writes SEC_JTAG_RELOCK (R408). -/
  | secJtagRelockWrite (v : Word)
  /-- ERROR_EVENT: One handshake of the ERR block: the places, among the events on their way, of those that arrive (R436). -/
  | errorEvent (picks : List Nat)
  /-- STICKY_BIT_CLEAR: The PF writes 1 to bits of a sticky register; new events of the same handshake (R440). -/
  | stickyBitClear (idx : Fin 19) (unit : Fin 16) (mask : Word) (again : List EventFacts)
  /-- ERR_FIRST_STATUS_WRITE: The PF writes ERR_FIRST_STATUS; the events that arrive in the same handshake (R439). -/
  | errFirstStatusWrite (v : Word) (picks : List Nat)
  /-- ULPS_ENTRY_EXIT: The lanes of a port enter or leave ULPS or high-speed reception (R52). -/
  | ulpsEntryExit (port : Fin 8) (ulps hs deskew : Bool)
  deriving DecidableEq, Repr

end Sys2Proof
end

