-- ==== Sys2Proof/Config.lean ====
section
/-!
DEFINITION. What one part fixes and what the manual leaves free. A free value is an opaque constant: nothing can evaluate it, so a claim holds whatever it is (log entry 4).
-/
namespace Sys2Proof.Config

/-- A value of `w` bits that the manual leaves open, fresh at each use (log entry 4). -/
opaque freeBits (w : Nat) : Nat → BitVec w

/-- What one part gives for a function code and an FP32 input: exp (3) and the reciprocal square root (4), free within the error that the manual states (R198; log entry 16). -/
opaque actFn (code : Nat) : BitVec 32 → BitVec 32

/-- The error of one part's piecewise polynomial at grid point `k` for sigmoid (0), tanh (1) and GELU (2), in 2^-96, free within the error that the manual states (R175; log entry 16). -/
opaque actErr (code : Nat) (k : Int) : Int

/-- The value that the encoder's 4-tap scaling gives from 4 × 4 samples, row by row, for the source size, output size and phase in 1/64 of each axis; the manual gives no coefficients (R99). -/
opaque encFilter (x y : Nat × Nat × Nat) : List (BitVec 8) → BitVec 8

/-- The fuses of one part (R373, R395, R403, R404; log entry 3): the key slots' digests and which slots are programmed. -/
opaque keyHash : Nat → BitVec 256

/-- Key slots programmed at manufacture. -/
opaque programmed : BitVec 4

/-- The unique secret. -/
opaque secret : BitVec 256

/-- The JTAG challenge that one part gives for a TB and a challenge counter: an HMAC under a key whose derivation the manual does not give (R407; log entry 4). -/
opaque challenge (tb counter : Nat) : BitVec 256

/-- The factory certificate in the OTP region, 2 KiB, and its length. -/
opaque cert : BitVec 16384

/-- The certificate's bytes in use. -/
opaque certLen : BitVec 12

/-- The 64-bit device serial number. -/
opaque serial : BitVec 64

/-- Spare columns in use of each memory index (R276). -/
opaque repairUsed : Nat → BitVec 3

/-- The factory block of calibration values. -/
opaque calFactory : Nat → BitVec 32

end Sys2Proof.Config
end

