-- ==== Sys2Proof/Machine/Bits.lean ====
section
/-!
DEFINITION. Bit fields, two's complement, byte lists and saturation: the field helpers every unit uses (R8).
-/
namespace Sys2Proof.Machine

/-- Bits `lo + len - 1 .. lo` of `v`. -/
def bits (v lo len : Nat) : Nat := (v >>> lo) % 2 ^ len

/-- Bit `i` of `v`. -/
def bit (v i : Nat) : Bool := v.testBit i

/-- `v` with bits `lo + len - 1 .. lo` replaced by `x`. -/
def putBits (v lo len x : Nat) : Nat :=
  v - (bits v lo len <<< lo) + ((x % 2 ^ len) <<< lo)

/-- The number 1 or 0 of a bit. -/
def b2n (b : Bool) : Nat := if b then 1 else 0

/-- The two's complement reading of the low `w` bits of `v`. -/
def sint (w v : Nat) : Int :=
  let x := v % 2 ^ w
  if x < 2 ^ (w - 1) then (x : Int) else (x : Int) - (2 ^ w : Nat)

/-- The `w`-bit two's complement pattern of `i` (wrapping). -/
def ofSint (w : Nat) (i : Int) : Nat := (i % ((2 ^ w : Nat) : Int)).toNat

/-- `i` held within `lo` and `hi`. -/
def clampInt (lo hi i : Int) : Int := if i < lo then lo else if hi < i then hi else i

/-- `n` held within `lo` and `hi`. -/
def clampNat (lo hi n : Nat) : Nat := if n < lo then lo else if hi < n then hi else n

/-- A counter of `w` bits that holds its greatest value (a saturating counter). -/
def satAdd (w a b : Nat) : Nat := min (a + b) (2 ^ w - 1)

/-- The 64-bit two's complement distance from `b` to `a`, for times and counters that wrap. -/
def dist64 (a b : Nat) : Int := sint 64 (ofSint 64 ((a : Int) - (b : Int)))

/-- The `n` bytes of `v`, least significant first (R8). -/
def leBytes : Nat → Nat → List Byte
  | 0, _ => []
  | n + 1, v => BitVec.ofNat 8 v :: leBytes n (v >>> 8)

/-- The number whose little-endian bytes are given (R8). -/
def ofLeBytes : List Byte → Nat
  | [] => 0
  | b :: t => b.toNat + 256 * ofLeBytes t

/-- Quotient rounded up; by 0 it is 0. -/
def ceilDiv (a b : Nat) : Nat := if b = 0 then 0 else (a + b - 1) / b

/-- The number of set bits among the low `w` bits of `v`. -/
def popCount : Nat → Nat → Nat
  | 0, _ => 0
  | w + 1, v => v % 2 + popCount w (v / 2)

/-- The least `i` with `n ≤ i < n + fuel` whose bit is set in `v`. -/
def firstSet (v : Nat) : Nat → Nat → Option Nat
  | _, 0 => none
  | n, fuel + 1 => if v.testBit n then some n else firstSet v (n + 1) fuel

/-- Fold over the numbers `0 .. n-1` in rising order. -/
def loopUp {σ : Type} : Nat → (Nat → σ → σ) → σ → σ
  | 0, _, s => s
  | n + 1, f, s => f n (loopUp n f s)

/-- Update of one place of a list; a place past the end changes nothing. -/
def updAt {α : Type} : List α → Nat → (α → α) → List α
  | [], _, _ => []
  | x :: t, 0, f => f x :: t
  | x :: t, n + 1, f => x :: updAt t n f

end Sys2Proof.Machine

namespace Sys2Proof

open Machine

/-- The bytes of a string, first byte first. -/
def Blob.bytes (b : Blob) : List Byte := leBytes b.len b.val

/-- A string from its bytes. -/
def Blob.ofBytes (l : List Byte) : Blob := { len := l.length, val := ofLeBytes l }

/-- `n` bytes of a string from offset `off`. -/
def Blob.slice (b : Blob) (off n : Nat) : Blob := { len := n, val := b.le off n }

/-- One string after another. -/
def Blob.append (a b : Blob) : Blob :=
  { len := a.len + b.len, val := a.val % 2 ^ (8 * a.len) + (b.val <<< (8 * a.len)) }

/-- The string with the `n` bytes at `off` replaced by the number `v`. -/
def Blob.putLe (b : Blob) (off n v : Nat) : Blob := { b with val := putBits b.val (8 * off) (8 * n) v }

end Sys2Proof
end

