-- ==== Sys2Proof/Machine/Crc.lean ====
section
/-!
DEFINITION. The check values of the manual: CRC-32C (R83) and the CRC-16 of an SE12 block (R162).
-/
namespace Sys2Proof.Machine

/-- One bit of the reflected CRC-32C register. -/
def crc32cBit (c : Nat) : Nat := if c % 2 = 1 then (c >>> 1) ^^^ 0x82F63B78 else c >>> 1

/-- One byte into the CRC-32C register (polynomial 0x1EDC6F41 reflected). -/
def crc32cByte (c b : Nat) : Nat :=
  crc32cBit (crc32cBit (crc32cBit (crc32cBit (crc32cBit (crc32cBit (crc32cBit (crc32cBit (c ^^^ b))))))))

/-- `n` bytes of a little-endian number into the CRC-32C register. -/
def crc32cRun (c v : Nat) : Nat → Nat
  | 0 => c
  | n + 1 => crc32cRun (crc32cByte c (v % 256)) (v >>> 8) n

/-- The register's final value: all bits inverted. -/
def crc32cEnd (c : Nat) : Nat := c ^^^ 0xFFFFFFFF

/-- CRC-32C of a byte string (R83): initial value all ones, result inverted. -/
def crc32c (b : Blob) : Nat := crc32cEnd (crc32cRun 0xFFFFFFFF b.val b.len)

/-- One bit of the CRC-16 register (polynomial 0x1021, most significant bit first). -/
def crc16Bit (c : Nat) : Nat :=
  if c.testBit 15 then ((c <<< 1) % 2 ^ 16) ^^^ 0x1021 else (c <<< 1) % 2 ^ 16

/-- One byte into the CRC-16 register. -/
def crc16Byte (c b : Nat) : Nat :=
  crc16Bit (crc16Bit (crc16Bit (crc16Bit (crc16Bit (crc16Bit (crc16Bit (crc16Bit (c ^^^ (b <<< 8)))))))))

/-- `n` bytes of a little-endian number into the CRC-16 register. -/
def crc16Run (c v : Nat) : Nat → Nat
  | 0 => c
  | n + 1 => crc16Run (crc16Byte c (v % 256)) (v >>> 8) n

end Sys2Proof.Machine
end

