-- ==== Sys2Proof/Machine/Numerics.lean ====
section
/-!
DEFINITION. Numbers: FP32, FP16 and BF16 arithmetic, SE12 blocks, narrow weights, the bounded functions (R157 to R175). An FP32 number is its 32 bits as a Nat.
-/
namespace Sys2Proof.Machine

/-- An exact dyadic number m × 2^e. -/
structure Dy where
  m : Int
  e : Int
  deriving DecidableEq, Repr

/-- The rewritten kernel size of an axis whose input is regrouped by space-to-depth (R188): size k, leading pad p, factor f. -/
def foldK (k p f : Nat) : Nat := (k - 1 - p) / f + ceilDiv p f + 1

/-- Is an FP32 pattern a NaN? -/
def fpNaN (a : Nat) : Bool := decide (bits a 23 8 = 255) && decide (bits a 0 23 ≠ 0)
/-- Is an FP32 pattern an infinity? -/
def fpInf (a : Nat) : Bool := decide (bits a 23 8 = 255) && decide (bits a 0 23 = 0)
/-- The quiet NaN that an invalid operation gives (log entry 15). -/
def fpQNaN : Nat := 0x7FC00000
/-- The sign bit of an FP32 pattern. -/
def fpSign (a : Nat) : Bool := a.testBit 31

/-- The value of a finite FP32 pattern; a subnormal reads as zero (R163, R172). -/
def fpDy (a : Nat) : Dy :=
  if bits a 23 8 = 0 then ⟨0, 0⟩
  else
    let m : Int := (bits a 0 23 + 2 ^ 23 : Nat)
    ⟨if fpSign a then -m else m, (bits a 23 8 : Int) - 150⟩

/-- Is the pattern zero, subnormals included? -/
def fpZero (a : Nat) : Bool := decide (bits a 23 8 = 0)

/-- `n / 2^k` rounded to nearest, ties to even. -/
def rneShift (n k : Nat) : Nat :=
  let q := n >>> k
  let r := n % 2 ^ k
  if k = 0 then n
  else if 2 ^ (k - 1) < r ∨ (r = 2 ^ (k - 1) ∧ q % 2 = 1) then q + 1 else q

/-- A dyadic number rounded to FP32 (R172): nearest even, a result below 2^-126 after rounding is a zero of its sign, one beyond the range the largest finite value, or an infinity where `sat` is off (R166). A zero takes the sign `zs`. -/
def fpRound (sat zs : Bool) (x : Dy) : Nat :=
  let mag := x.m.natAbs
  let sg := if x.m < 0 then 2 ^ 31 else 0
  if mag = 0 then (if zs then 2 ^ 31 else 0)
  else
    let bl := Nat.log2 mag + 1
    let q0 := if 24 < bl then rneShift mag (bl - 24) else mag <<< (24 - bl)
    let up := decide (q0 = 2 ^ 24)
    let q := if up then 2 ^ 23 else q0
    let b : Int := x.e + (bl : Int) - 24 + 150 + (if up then 1 else 0)
    if b < 1 then sg
    else if 254 < b then (if sat then sg + 0x7F7FFFFF else sg + 0x7F800000)
    else sg + b.toNat <<< 23 + (q - 2 ^ 23)

/-- The sum of two dyadic numbers. -/
def dyAdd (a b : Dy) : Dy :=
  let e := min a.e b.e
  ⟨a.m * 2 ^ (a.e - e).toNat + b.m * 2 ^ (b.e - e).toNat, e⟩

/-- The product of two dyadic numbers. -/
def dyMul (a b : Dy) : Dy := ⟨a.m * b.m, a.e + b.e⟩

/-- FP32 addition (R172). -/
def fpAddG (sat : Bool) (a b : Nat) : Nat :=
  if fpNaN a || fpNaN b then fpQNaN
  else if fpInf a then (if fpInf b && fpSign a != fpSign b then fpQNaN else a % 2 ^ 32)
  else if fpInf b then b % 2 ^ 32
  else fpRound sat (fpSign a && fpSign b && fpZero a && fpZero b) (dyAdd (fpDy a) (fpDy b))

/-- FP32 addition in the drain units and vector engines. -/
def fpAdd (a b : Nat) : Nat := fpAddG true a b
/-- The negation of an FP32 pattern. -/
def fpNeg (a : Nat) : Nat := (a ^^^ 2 ^ 31) % 2 ^ 32
/-- FP32 subtraction. -/
def fpSub (a b : Nat) : Nat := fpAdd a (fpNeg b)

/-- FP32 multiplication (R172). -/
def fpMul (a b : Nat) : Nat :=
  let sg := if fpSign a != fpSign b then 2 ^ 31 else 0
  if fpNaN a || fpNaN b then fpQNaN
  else if fpInf a || fpInf b then (if fpZero a || fpZero b then fpQNaN else sg + 0x7F800000)
  else fpRound true (fpSign a != fpSign b) (dyMul (fpDy a) (fpDy b))

/-- The quotient of magnitudes as a dyadic number with a sticky bit: exact enough for one rounding. -/
def dyDiv (a b : Dy) : Dy :=
  let n := a.m.natAbs <<< 64
  let d := b.m.natAbs
  let q : Int := (2 * (n / d) + (if n % d = 0 then 0 else 1) : Nat)
  ⟨if decide (a.m < 0) != decide (b.m < 0) then -q else q, a.e - b.e - 65⟩

/-- FP32 division, correctly rounded (R166). -/
def fpDivG (sat : Bool) (a b : Nat) : Nat :=
  let sg := if fpSign a != fpSign b then 2 ^ 31 else 0
  if fpNaN a || fpNaN b || (fpInf a && fpInf b) || (fpZero a && fpZero b) then fpQNaN
  else if fpInf a then sg + 0x7F800000
  else if fpInf b then sg
  else if fpZero b then (if sat then sg + 0x7F7FFFFF else sg + 0x7F800000)
  else if fpZero a then sg
  else fpRound sat false (dyDiv (fpDy a) (fpDy b))

/-- FP32 division in the vector engines. -/
def fpDiv (a b : Nat) : Nat := fpDivG true a b

/-- FP32 square root, correctly rounded; negative operands give a NaN. -/
def fpSqrt (a : Nat) : Nat :=
  if fpNaN a then fpQNaN
  else if fpZero a then (if fpSign a then 2 ^ 31 else 0)
  else if fpSign a then fpQNaN
  else if fpInf a then a
  else
    let d := fpDy a
    let odd := decide (d.e % 2 ≠ 0)
    let m := (if odd then d.m.toNat * 2 else d.m.toNat) <<< 80
    let e := (if odd then d.e - 1 else d.e) / 2 - 40
    let r := Nat.sqrt m
    let mm : Int := (2 * r + (if r * r = m then 0 else 1) : Nat)
    fpRound true false ⟨mm, e - 1⟩

/-- The L2 norm of a vector, the squares added in order. -/
def l2Norm (v : List Nat) : Nat := fpSqrt (v.foldl (fun a x => fpAdd a (fpMul x x)) 0)

/-- A vector divided by its L2 norm; a zero vector stays. -/
def unitNorm (v : List Nat) : List Nat := if fpZero (l2Norm v) then v else v.map (fun x => fpDiv x (l2Norm v))

/-- The order of finite FP32 numbers; a NaN is not below anything. -/
def fpLt (a b : Nat) : Bool :=
  if fpNaN a || fpNaN b then false
  else
    let v := fun (x : Nat) => if fpInf x then (⟨if fpSign x then -1 else 1, 300⟩ : Dy) else fpDy x
    let d := dyAdd (v a) (let y := v b; ⟨-y.m, y.e⟩)
    decide (d.m < 0)

/-- a ≤ b. -/
def fpLe (a b : Nat) : Bool := !(fpNaN a) && !(fpNaN b) && !(fpLt b a)
/-- The greater of two. -/
def fpMax (a b : Nat) : Nat := if fpLt a b then b else a
/-- The smaller of two. -/
def fpMin (a b : Nat) : Nat := if fpLt b a then b else a

/-- An integer as FP32. -/
def fpOfInt (i : Int) : Nat := fpRound true false ⟨i, 0⟩

/-- An FP16 pattern widened to FP32, exactly. -/
def fp16to32 (h : Nat) : Nat :=
  let sg := if h.testBit 15 then 2 ^ 31 else 0
  let ex := bits h 10 5
  let fr := bits h 0 10
  if ex = 31 then sg + 0x7F800000 + fr <<< 13
  else if ex = 0 then (if fr = 0 then sg else sg + fpRound true false ⟨(fr : Int), -24⟩)
  else sg + (ex + 112) <<< 23 + fr <<< 13

/-- A BF16 pattern widened to FP32. -/
def bf16to32 (h : Nat) : Nat := (h % 65536) <<< 16

/-- An FP32 pattern rounded to FP16, nearest even, with FP16 subnormals and infinities (R166). -/
def fp16Rne (a : Nat) : Nat :=
  let sg := if fpSign a then 2 ^ 15 else 0
  if fpNaN a then 0x7E00
  else if fpInf a then sg + 0x7C00
  else
    let d := fpDy a
    let mag := d.m.natAbs
    if mag = 0 then sg
    else
      let bl := Nat.log2 mag + 1
      let q : Int := max (d.e + (bl : Int) - 11) (-24)
      let sh := q - d.e
      let r := if 0 < sh then rneShift mag sh.toNat else mag <<< (-sh).toNat
      if r < 2 ^ 10 then sg + r
      else
        let r1 := if r = 2 ^ 11 then 2 ^ 10 else r
        let b : Int := q + 25 + (if r = 2 ^ 11 then 1 else 0)
        if 30 < b then sg + 0x7C00 else sg + b.toNat <<< 10 + (r1 - 2 ^ 10)

/-- The nearest integer of m × 2^e, ties away from zero (R162). -/
def roundAway (x : Dy) : Int :=
  if 0 ≤ x.e then x.m * 2 ^ x.e.toNat
  else
    let k := (-x.e).toNat
    let n : Int := ((2 * x.m.natAbs + 2 ^ k) / 2 ^ (k + 1) : Nat)
    if x.m < 0 then -n else n

/-! ### SE12 blocks (R157 to R163) -/

/-- Mantissa `i` of a block. -/
def blkMant (b i : Nat) : Int := sint 12 (bits b (12 * i) 12)
/-- The exponent byte. -/
def blkExp (b : Nat) : Nat := bits b 192 8
/-- The status byte. -/
def blkStatus (b : Nat) : Nat := bits b 200 8
/-- The stored CRC-16. -/
def blkCrc (b : Nat) : Nat := bits b 208 16
/-- The CRC-16 of bytes 0 to 24 (R160). -/
def blkCrcOf (b : Nat) : Nat := crc16Run 0xFFFF b 25
/-- Read as poisoned (R159). -/
def blkPoison (b : Nat) : Bool := decide (blkExp b = 255) || (blkStatus b).testBit 0
/-- Read as zero (R159). -/
def blkZero (b : Nat) : Bool := decide (blkExp b = 0)
/-- concealed_source. -/
def blkConcealed (b : Nat) : Bool := (blkStatus b).testBit 1

/-- Mantissas packed, first lowest. -/
def packMants : List Int → Nat
  | [] => 0
  | m :: t => ofSint 12 m + 2 ^ 12 * packMants t

/-- A block from mantissas, exponent and status, with its CRC. -/
def mkBlock (ms : List Int) (e st : Nat) : Nat :=
  let b := packMants ms % 2 ^ 192 + e <<< 192
  b + (st % 256) <<< 200 + blkCrcOf b <<< 208

/-- A poisoned block: exponent 255, the poison bit, all mantissas 0 (R158, R159); `st` carries the other status bits. -/
def poisonBlock (st : Nat) : Nat := mkBlock [] 255 (st ||| 1)

/-- The value of channel `i` of a block, as a dyadic number. -/
def blkDy (b i : Nat) : Dy := if blkZero b then ⟨0, 0⟩ else ⟨blkMant b i, (blkExp b : Int) - 137⟩

/-- The value of channel `i` as FP32: m × 2^(e−137) under R172. -/
def blkFp (b i : Nat) : Nat := fpRound true false (blkDy b i)

/-- A value × 2^(137 − e), rounded away; an infinity does not fit anywhere (R163). -/
def se12Mant (e v : Nat) : Option Int :=
  if fpInf v then none
  else
    let m := roundAway (let d := fpDy v; ⟨d.m, d.e + 137 - e⟩)
    if 2047 < m ∨ m < -2048 then none else some m

/-- The value at exponent 254, clamped. -/
def se12Clamp (v : Nat) : Int :=
  if fpInf v then (if fpSign v then -2048 else 2047)
  else clampInt (-2048) 2047 (roundAway (let d := fpDy v; ⟨d.m, d.e + 137 - 254⟩))

/-- All mantissas at one exponent, when they fit. -/
def se12All (e : Nat) : List Nat → Option (List Int)
  | [] => some []
  | v :: t =>
    match se12Mant e v, se12All e t with
    | some m, some r => some (m :: r)
    | _, _ => none

/-- The smallest exponent at which all fit, from `e` on (R162). -/
def se12Search (vs : List Nat) : Nat → Nat → Option (Nat × List Int)
  | _, 0 => none
  | e, fuel + 1 =>
    match se12All e vs with
    | some ms => some (e, ms)
    | none => se12Search vs (e + 1) fuel

/-- 16 FP32 values written as a block (R162, R163): a NaN poisons it. -/
def se12Of (vs : List Nat) (st : Nat) : Nat :=
  if vs.any fpNaN then poisonBlock st
  else
    let r := match se12Search vs 1 254 with
      | some x => x
      | none => (254, vs.map se12Clamp)
    if r.2.all (fun m => decide (m = 0)) then mkBlock [] 0 st else mkBlock r.2 r.1 st

/-! ### Narrow weights (R164 to R169) -/

/-- The number of bits of a weight format code: 0 W4, 1 W8, else W12. -/
def wBits (f : Nat) : Nat := match f with | 0 => 4 | 1 => 8 | _ => 12

/-- The largest K range of `len` K indices whose codes fit a weight-stage buffer, 32 columns of `sets` weight sets of `bitsN` bits, in whole steps of `step` (R134, R215, Table 6.2). -/
def kRange (bitsN sets step len : Nat) : Nat :=
  let most := 229376 / (4 * bitsN * sets)
  if len ≤ most then len else most / step * step

/-- A quantised group: scale (FP16), zero point, codes. -/
structure WGroup where
  scale : Nat
  zp : Nat
  codes : List Nat
  deriving DecidableEq, Repr

/-- The order of two FP32 patterns that are no NaN as numbers, subnormals included: a weight of a package is compared as it stands (R166). -/
def fpBelow (a b : Nat) : Bool :=
  let v := fun (x : Nat) => let m : Int := (x % 2 ^ 31 : Nat); if fpSign x then -m else m
  decide (v a < v b)

/-- The smallest and largest weights of a group, with 0 (R166). -/
def wRange : List Nat → Nat × Nat
  | [] => (0, 0)
  | w :: t => let r := wRange t; (if fpBelow w r.1 then w else r.1, if fpBelow r.2 w then w else r.2)

/-- An FP32 pattern rounded away to an integer. -/
def fpRoundAway (a : Nat) : Int := roundAway (fpDy a)

/-- One group of FP32 weights quantised to `b` bits (R166); none is QUANT_SCALE_RANGE. -/
def quantGroup (b : Nat) (ws : List Nat) : Option WGroup :=
  let r := wRange ws
  let range := fpAddG false r.2 (fpNeg r.1)
  let s0 := fp16Rne (fpDivG false range (fpOfInt (2 ^ b - 1)))
  if s0 % 2 ^ 15 = 0x7C00 then none
  else
    let s := if s0 % 2 ^ 15 = 0 && fpBelow r.1 r.2 then 1 else s0
    if s % 2 ^ 15 = 0 then some { scale := 0, zp := 0, codes := ws.map (fun _ => 0) }
    else
      let s32 := fp16to32 s
      let zp := clampInt 0 (2 ^ b - 1) (fpRoundAway (fpDivG false (fpNeg r.1) s32))
      some { scale := s, zp := zp.toNat, codes := ws.map (fun w => (clampInt 0 (2 ^ b - 1) (fpRoundAway (fpDivG false w s32) + zp)).toNat) }

/-- Does a list of FP32 weights hold a NaN or an infinity (R168)? -/
def nonFinite (ws : List Nat) : Bool := ws.any (fun w => fpNaN w || fpInf w)

/-! ### Fixed-point exp, sin, erf with 96 fractional bits, for functions that the manual gives by their exact form and an error -/

/-- One in fixed point. -/
def fxOne : Int := 2 ^ 96
/-- Product of fixed-point numbers. -/
def fxMul (a b : Int) : Int := a * b / 2 ^ 96
/-- π in fixed point. -/
def fxPi : Int := 248902613312231085230521944622
/-- FP32 to fixed point. -/
def fxOf (a : Nat) : Int :=
  let d := fpDy a
  if 0 ≤ d.e + 96 then d.m * 2 ^ (d.e + 96).toNat else d.m / 2 ^ (-(d.e + 96)).toNat
/-- Fixed point to FP32, rounded. -/
def fpOfFx (x : Int) : Nat := fpRound true false ⟨x, -96⟩

/-- Taylor sum of e^x: `t` is the present term, `k` its index. -/
def fxExpSum (x : Int) : Nat → Nat → Int → Int
  | 0, _, _ => 0
  | n + 1, k, t => t + fxExpSum x n (k + 1) (fxMul t x / ((k : Int) + 1))

/-- Squared `n` times. -/
def fxSquare : Nat → Int → Int
  | 0, x => x
  | n + 1, x => fxSquare n (fxMul x x)

/-- e^x for |x| ≤ 64 or so. -/
def fxExp (x : Int) : Int := fxSquare 8 (fxExpSum (x / 256) 24 0 fxOne)

/-- Taylor sum of sin or cos in steps of two. -/
def fxTrigSum (x2 : Int) : Nat → Nat → Int → Int
  | 0, _, _ => 0
  | n + 1, k, t => t + fxTrigSum x2 n (k + 2) (-(fxMul t x2 / (((k : Int) + 1) * ((k : Int) + 2))))

/-- sin of a fixed-point angle, reduced to [−π, π]. -/
def fxSin (a : Int) : Int :=
  let r := (a + fxPi) % (2 * fxPi) - fxPi
  fxTrigSum (fxMul r r) 24 1 r

/-- cos of a fixed-point angle. -/
def fxCos (a : Int) : Int :=
  let r := (a + fxPi) % (2 * fxPi) - fxPi
  fxTrigSum (fxMul r r) 24 0 fxOne

/-- Series of erf(x) × √π / 2: Σ (−1)^n x^(2n+1) / (n! (2n+1)). -/
def fxErfSum (x2 : Int) : Nat → Nat → Int → Int
  | 0, _, _ => 0
  | n + 1, k, t => t / (2 * (k : Int) + 1) + fxErfSum x2 n (k + 1) (-(fxMul t x2 / ((k : Int) + 1)))

/-- 2/√π in fixed point. -/
def fxTwoOverRootPi : Int := 2 * fxOne * 2 ^ 96 / (Nat.sqrt (fxPi.toNat * 2 ^ 96) : Int)

/-- erf, 1 beyond ±6. -/
def fxErf (x : Int) : Int :=
  if 6 * fxOne < x then fxOne else if x < -(6 * fxOne) then -fxOne
  else fxMul fxTwoOverRootPi (fxErfSum (fxMul x x) 160 0 x)

/-- 1/√2 in fixed point. -/
def fxRootHalf : Int := (Nat.sqrt (2 ^ 191) : Int)

/-- The exact function of an activation code: 0 sigmoid, 1 tanh, 2 GELU. -/
def fxAct (code : Nat) (x : Int) : Int :=
  let sig := fun (y : Int) =>
    if 60 * fxOne < y then fxOne else if y < -(60 * fxOne) then 0
    else fxOne * 2 ^ 96 / (fxOne + fxExp (-y))
  match code with
  | 0 => sig x
  | 1 => 2 * sig (2 * x) - fxOne
  | _ => fxMul x (fxOne + fxErf (fxMul x fxRootHalf)) / 2

/-- A function that a part computes within a relative error of 2^-13: what the part gives (a constant of Config, function of the input), where it lies within the error of the exact value, else the exact value rounded (log entry 16). -/
def bounded (free : Nat) (exact : Dy) : Nat :=
  let off := dyAdd (fpDy free) ⟨-exact.m, exact.e⟩
  let far := dyAdd ⟨(off.m.natAbs : Int) * 2 ^ 13, off.e⟩ ⟨-(exact.m.natAbs : Int), exact.e⟩
  if !(fpNaN free) && !(fpInf free) && decide (far.m ≤ 0) then free % 2 ^ 32 else fpRound true false exact

/-- The error of a part's polynomial at grid point `k`, k / 16 in the input: a constant of Config, kept below 2^-13 by the rounding of the result; none from ±16 on. -/
def gridError (code : Nat) (k : Int) : Int :=
  if 256 ≤ k.natAbs then 0 else clampInt (-(2 ^ 83 - 2 ^ 73)) (2 ^ 83 - 2 ^ 73) (Config.actErr code k)

/-- The error of a part's polynomial at `x`, straight between the points of the grid, so that no slope rises by more than 2^-8 (R175; log entry 16). -/
def polyError (code : Nat) (x : Int) : Int :=
  let h : Int := 2 ^ 92
  let k := x.fdiv h
  (gridError code k * (h - x.fmod h) + gridError code (k + 1) * x.fmod h).fdiv h

/-- Sigmoid, tanh and GELU within the errors of R175: 2^-13, and 2^-13 × max(1, |x|) for GELU; no slope above 1.25 (R175, R178). -/
def fpAct (code a : Nat) : Nat :=
  if fpNaN a then fpQNaN
  else
    let x := if fpInf a then (if fpSign a then -(2 ^ 20 * fxOne) else 2 ^ 20 * fxOne) else fxOf a
    let e := polyError code x
    fpOfFx (fxAct code x + (if code = 2 then fxMul e (max fxOne (x.natAbs : Int)) else e))

/-- ln 2 in fixed point. -/
def fxLn2 : Int := 54916777467707473351141471128

/-- e^x of an FP32 number: a number from 1 to 2 in fixed point times a power of two; 0 below −90, where the result is below the FP32 range, and as at 90 above. -/
def dyExp (v : Nat) : Dy :=
  let x := fxOf v
  if x < -(90 * fxOne) then ⟨0, 0⟩
  else
    let y := min x (90 * fxOne)
    ⟨fxExp (y.fmod fxLn2), y.fdiv fxLn2 - 96⟩

/-- 1 / √v of a positive FP32 number, with more than 80 significant bits. -/
def dyRsqrt (v : Nat) : Dy :=
  let d := fpDy v
  let odd := decide (d.e % 2 ≠ 0)
  let m := if odd then d.m.natAbs * 2 else d.m.natAbs
  ⟨((2 ^ 180 / max 1 (Nat.sqrt (m <<< 160)) : Nat) : Int), -((if odd then d.e - 1 else d.e) / 2) - 100⟩

end Sys2Proof.Machine
end

