-- ==== Sys2Proof/Machine/Butterfly.lean ====
section
/-!
DEFINITION. The 32-point transforms of the butterfly path in FP32 (R145, R191, R192, R195).
-/
namespace Sys2Proof.Machine

/-- A complex FP32 number: real and imaginary patterns. -/
abbrev Cpx := Nat × Nat

/-- Component-wise sum. -/
def cAdd (a b : Cpx) : Cpx := (fpAdd a.1 b.1, fpAdd a.2 b.2)
/-- Component-wise difference. -/
def cSub (a b : Cpx) : Cpx := (fpSub a.1 b.1, fpSub a.2 b.2)
/-- Product: four separately rounded products, then one rounded difference and one rounded sum (R192). -/
def cMul (a b : Cpx) : Cpx :=
  (fpSub (fpMul a.1 b.1) (fpMul a.2 b.2), fpAdd (fpMul a.1 b.2) (fpMul a.2 b.1))

/-- Twiddle j: (cos(2πj/32), −sin(2πj/32)), each rounded to FP32; cos(π/2) is 0; conjugated for the inverse (R192). -/
def twiddle (inv : Bool) (j : Nat) : Cpx :=
  let a := 2 * fxPi * (j : Int) / 32
  let c := if j = 8 then 0 else fpOfFx (fxCos a)
  let sn := fpOfFx (fxSin a)
  (c, if inv then sn else fpNeg sn)

/-- The place of a list, zero outside. -/
def cAt (l : List Cpx) (i : Nat) : Cpx := (l[i]?).getD (0, 0)

/-- The 5-bit reversal of an index. -/
def rev5 (i : Nat) : Nat := bits i 0 1 * 16 + bits i 1 1 * 8 + bits i 2 1 * 4 + bits i 3 1 * 2 + bits i 4 1

/-- One stage of span `sp`: t = b × w, then a + t and a − t (R192). -/
def fftStage (inv : Bool) (sp : Nat) (l : List Cpx) : List Cpx :=
  (List.range 32).map (fun i =>
    let h := sp / 2
    let k := i % sp
    let a := cAt l (if k < h then i else i - h)
    let b := cAt l (if k < h then i + h else i)
    let t := cMul b (twiddle inv (k % h * (32 / sp)))
    if k < h then cAdd a t else cSub a t)

/-- The 32-point transform: decimation in time on bit-reversed input, spans 2 to 32. -/
def fft32 (inv : Bool) (l : List Cpx) : List Cpx :=
  let l0 := (List.range 32).map (fun i => cAt l (rev5 i))
  fftStage inv 32 (fftStage inv 16 (fftStage inv 8 (fftStage inv 4 (fftStage inv 2 l0))))

/-- Rows and columns of a 32 × 32 array exchanged. -/
def cTranspose (m : List (List Cpx)) : List (List Cpx) :=
  (List.range 32).map (fun j => m.map (fun r => cAt r j))

/-- The forward 2-D transform: rows first, then columns (R192). Entry (u, v) is at row u, column v. -/
def fft2 (x : List (List Cpx)) : List (List Cpx) :=
  cTranspose ((cTranspose (x.map (fft32 false))).map (fft32 false))

/-- A row of 32 from its bins 0 to 16 by conjugate symmetry (R191). -/
def unfold17 (l : List Cpx) : List Cpx :=
  (List.range 32).map (fun v => if v < 17 then cAt l v else let z := cAt l (32 - v); (z.1, fpNeg z.2))

/-- 1/1,024 in FP32. -/
def inv1024 : Nat := 0x3A800000

/-- The second inverse stage of one row: 32-point inverse along v of the 17 bins, the scale applied (R195). -/
def ifftRow (l : List Cpx) : List Nat := (fft32 true (unfold17 l)).map (fun z => fpMul z.1 inv1024)

end Sys2Proof.Machine
end

