-- ==== Sys2Proof/Machine/Regs.lean ====
section
/-!
DEFINITION. The register map: the address of every register of the manual's register tables as an offset of the PF's BAR0 (R334, Table 14.3), the rows of those tables (base, size, copies, access code R9, writable bits), and the windows of a VF (R335).
The registers of a VF's own window (MGMT_VF and its mailbox) are kept at `vfBase f`, above the PF's space (the model's own key; the spec gives each VF a BAR0 of its own).
-/
namespace Sys2Proof.Machine

/-- The key of VF `f`'s BAR0 (the model's numbering; R333 gives each VF 1 MiB). -/
def vfBase (f : Nat) : Nat := 0x100000000 + 0x100000 * f

/-- The base of function `f`'s mailbox: the PF's at MGMT 0x1000, a VF's at its BAR0 0x100 (Table 14.8). -/
def mbxBase (f : Nat) : Nat := if f = 0 then 0x1000 else vfBase f + 0x100

/-- The base of stream `s`'s ingress window: Ethernet block for S0 to S63, CSI block for S64 to S95 (03). -/
def ingStrmBase (s : Nat) : Nat := if s < 64 then 0x608000 + 0x40 * s else 0x508000 + 0x40 * (s - 64)

/-- TB_NOW (02, Table 2.10; 64 bits, RO). -/
def Reg.tbNow : Nat := 0x100000

/-- TB_CTRL (02, Table 2.10; 32 bits, RW). -/
def Reg.tbCtrl : Nat := 0x100008

/-- TB_STATUS (02, Table 2.10; 32 bits, RO). -/
def Reg.tbStatus : Nat := 0x10000c

/-- TB_ADJ_RATE (02, Table 2.10; 32 bits, RW). -/
def Reg.tbAdjRate : Nat := 0x100010

/-- TB_ADJ_OFFSET (02, Table 2.10; 32 bits, WO). -/
def Reg.tbAdjOffset : Nat := 0x100014

/-- TB_SLEW_REMAIN (02, Table 2.10; 32 bits, RO). -/
def Reg.tbSlewRemain : Nat := 0x100018

/-- TB_INCR (02, Table 2.10; 64 bits, RO). -/
def Reg.tbIncr : Nat := 0x100020

/-- TB_SET (02, Table 2.10; 64 bits, WO). -/
def Reg.tbSet : Nat := 0x100028

/-- TB_PPS_CAPTURE (02, Table 2.10; 64 bits, RO). -/
def Reg.tbPpsCapture : Nat := 0x100030

/-- TB_PPS_COUNT (02, Table 2.10; 32 bits, RO). -/
def Reg.tbPpsCount : Nat := 0x100038

/-- TB_ERR (02, Table 2.10; 32 bits, RWS). -/
def Reg.tbErr : Nat := 0x10003c

/-- TB_RESYNC_CNT (02, Table 2.10; 32 bits, RO). -/
def Reg.tbResyncCnt : Nat := 0x100040

/-- PWT_STATUS (02, Table 2.12; 32 bits, RO). -/
def Reg.pwtStatus : Nat := 0x200000

/-- PWT_INT_EN (02, Table 2.12; 32 bits, RW). -/
def Reg.pwtIntEn : Nat := 0x200004

/-- PWT_POWER_CAP (02, Table 2.12; 32 bits, RW). -/
def Reg.pwtPowerCap : Nat := 0x200008

/-- PWT_CAP_RESULT (02, Table 2.12; 32 bits, RO). -/
def Reg.pwtCapResult : Nat := 0x20000c

/-- PWT_CAP_MIN_S (02, Table 2.12; 32 bits, RO). -/
def Reg.pwtCapMinS : Nat := 0x200010

/-- PWT_POWER_NOW (02, Table 2.12; 32 bits, RO). -/
def Reg.pwtPowerNow : Nat := 0x200014

/-- PWT_VDD_ARRAY (02, Table 2.12; 32 bits, RO). -/
def Reg.pwtVddArray : Nat := 0x200018

/-- PWT_VDD_LOGIC (02, Table 2.12; 32 bits, RO). -/
def Reg.pwtVddLogic : Nat := 0x20001c

/-- PWT_BEAT_TARGET (02, Table 2.12; 32 bits, RO). -/
def Reg.pwtBeatTarget : Nat := 0x200020

/-- PWT_BEAT_NOW (02, Table 2.12; 32 bits, RO). -/
def Reg.pwtBeatNow : Nat := 0x200024

/-- PWT_MARGIN (02, Table 2.12; 32 bits, RW). -/
def Reg.pwtMargin : Nat := 0x200028

/-- PWT_REEF_STATE (02, Table 2.12; 32 bits, RO). -/
def Reg.pwtReefState : Nat := 0x20002c

/-- PWT_TEMP_MAX (02, Table 2.12; 32 bits, RO). -/
def Reg.pwtTempMax : Nat := 0x200030

/-- PWT_PD_WAKE_CNT (02, Table 2.12; 32 bits, RO). -/
def Reg.pwtPdWakeCnt : Nat := 0x200034

/-- PWT_TEMP (02, Table 2.12; 32 bits, RO). -/
def Reg.pwtTemp (i : Nat) : Nat := 0x200040 + 0x4 * i

/-- PWT_ERR (02, Table 2.12; 32 bits, RWS). -/
def Reg.pwtErr : Nat := 0x200070

/-- PWT_PD_STATE (02, Table 2.12; 32 bits, RO). -/
def Reg.pwtPdState (r : Nat) : Nat := 0x200080 + 0x4 * r

/-- PWT_TT_RATE (02, Table 2.12; 32 bits, RO). -/
def Reg.pwtTtRate (i : Nat) : Nat := 0x200100 + 0x4 * i

/-- ING_CSI_CTRL (03, Table 3.7; 32 bits, RW). -/
def Reg.ingCsiCtrl (k : Nat) : Nat := 0x500000 + 0x1000 * k

/-- ING_CSI_STATUS (03, Table 3.7; 32 bits, RO). -/
def Reg.ingCsiStatus (k : Nat) : Nat := 0x500004 + 0x1000 * k

/-- ING_CSI_ERR (03, Table 3.7; 32 bits, RWS). -/
def Reg.ingCsiErr (k : Nat) : Nat := 0x500008 + 0x1000 * k

/-- ING_CSI_INT_EN (03, Table 3.7; 32 bits, RW). -/
def Reg.ingCsiIntEn (k : Nat) : Nat := 0x50000c + 0x1000 * k

/-- ING_CSI_ECC_CNT (03, Table 3.7; 32 bits, RO). -/
def Reg.ingCsiEccCnt (k : Nat) : Nat := 0x500010 + 0x1000 * k

/-- ING_CSI_CRC_CNT (03, Table 3.7; 32 bits, RO). -/
def Reg.ingCsiCrcCnt (k : Nat) : Nat := 0x500014 + 0x1000 * k

/-- ING_CSI_DROP_CNT (03, Table 3.7; 32 bits, RO). -/
def Reg.ingCsiDropCnt (k : Nat) : Nat := 0x500018 + 0x1000 * k

/-- ING_ETH_CTRL (03, Table 3.7; 32 bits, RW). -/
def Reg.ingEthCtrl (e : Nat) : Nat := 0x600000 + 0x1000 * e

/-- ING_ETH_PAUSE (03, Table 3.7; 32 bits, RW). -/
def Reg.ingEthPause (e : Nat) : Nat := 0x600004 + 0x1000 * e

/-- ING_ETH_STATUS (03, Table 3.7; 32 bits, RO). -/
def Reg.ingEthStatus (e : Nat) : Nat := 0x600008 + 0x1000 * e

/-- ING_ETH_ERR (03, Table 3.7; 32 bits, RWS). -/
def Reg.ingEthErr (e : Nat) : Nat := 0x60000c + 0x1000 * e

/-- ING_ETH_INT_EN (03, Table 3.7; 32 bits, RW). -/
def Reg.ingEthIntEn (e : Nat) : Nat := 0x600010 + 0x1000 * e

/-- ING_ETH_RX_CNT (03, Table 3.7; 32 bits, RO). -/
def Reg.ingEthRxCnt (e : Nat) : Nat := 0x600014 + 0x1000 * e

/-- ING_ETH_FCS_CNT (03, Table 3.7; 32 bits, RO). -/
def Reg.ingEthFcsCnt (e : Nat) : Nat := 0x600018 + 0x1000 * e

/-- ING_ETH_DROP_CNT (03, Table 3.7; 32 bits, RO). -/
def Reg.ingEthDropCnt (e : Nat) (c : Nat) : Nat := 0x60001c + 0x1000 * e + 0x4 * c

/-- ING_ETH_UNCLASS_CNT (03, Table 3.7; 32 bits, RO). -/
def Reg.ingEthUnclassCnt (e : Nat) : Nat := 0x600030 + 0x1000 * e

/-- ING_ETH_STORE_FULL_CNT (03, Table 3.7; 32 bits, RO). -/
def Reg.ingEthStoreFullCnt (e : Nat) : Nat := 0x600034 + 0x1000 * e

/-- ING_STRM_FRAMES (03, Table 3.7; 32 bits, RO). -/
def Reg.ingStrmFrames (s : Nat) : Nat := ingStrmBase s + 0x0

/-- ING_STRM_BP_DROPS (03, Table 3.7; 32 bits, RO). -/
def Reg.ingStrmBpDrops (s : Nat) : Nat := ingStrmBase s + 0x4

/-- ING_STRM_CONCEALED (03, Table 3.7; 32 bits, RO). -/
def Reg.ingStrmConcealed (s : Nat) : Nat := ingStrmBase s + 0x8

/-- ING_STRM_LOST (03, Table 3.7; 32 bits, RO). -/
def Reg.ingStrmLost (s : Nat) : Nat := ingStrmBase s + 0xc

/-- ING_STRM_LATE_DUP (03, Table 3.7; 32 bits, RO). -/
def Reg.ingStrmLateDup (s : Nat) : Nat := ingStrmBase s + 0x10

/-- ING_STRM_EMB_TRUNC (03, Table 3.7; 32 bits, RO). -/
def Reg.ingStrmEmbTrunc (s : Nat) : Nat := ingStrmBase s + 0x14

/-- ING_STRM_COUNTER (03, Table 3.7; 32 bits, RO). -/
def Reg.ingStrmCounter (s : Nat) : Nat := ingStrmBase s + 0x18

/-- ING_STRM_STATE (03, Table 3.7; 32 bits, RO). -/
def Reg.ingStrmState (s : Nat) : Nat := ingStrmBase s + 0x1c

/-- ING_STRM_LAST_TB (03, Table 3.7; 64 bits, RO). -/
def Reg.ingStrmLastTb (s : Nat) : Nat := ingStrmBase s + 0x20

/-- ING_STRM_NB_DROPS (03, Table 3.7; 32 bits, RO). -/
def Reg.ingStrmNbDrops (s : Nat) : Nat := ingStrmBase s + 0x28

/-- ING_ETH_CLASS (03, Table 3.7; 512 bits, RW). -/
def Reg.ingEthClass (n : Nat) : Nat := 0x610000 + 0x40 * n

/-- DEC_CTRL (04, Table 4.11; 32 bits, RW). -/
def Reg.decCtrl : Nat := 0x700000

/-- DEC_ERR (04, Table 4.11; 32 bits, RWS). -/
def Reg.decErr : Nat := 0x700004

/-- DEC_INT_EN (04, Table 4.11; 32 bits, RW). -/
def Reg.decIntEn : Nat := 0x700008

/-- DEC_DUAL_MISMATCH_CNT (04, Table 4.11; 32 bits, RO). -/
def Reg.decDualMismatchCnt : Nat := 0x70000c

/-- DEC_STATUS (04, Table 4.11; 32 bits, RO). -/
def Reg.decStatus (d : Nat) : Nat := 0x701000 + 0x1000 * d

/-- DEC_PIX_CNT (04, Table 4.11; 64 bits, RO). -/
def Reg.decPixCnt (d : Nat) : Nat := 0x701008 + 0x1000 * d

/-- DEC_BUSY_NS (04, Table 4.11; 64 bits, RO). -/
def Reg.decBusyNs (d : Nat) : Nat := 0x701010 + 0x1000 * d

/-- DEC_ROWS_CONCEALED (04, Table 4.11; 32 bits, RO). -/
def Reg.decRowsConcealed (d : Nat) : Nat := 0x701018 + 0x1000 * d

/-- DEC_STRM_CFG (04, Table 4.11; 32 bits, RO). -/
def Reg.decStrmCfg (s : Nat) : Nat := 0x708000 + 0x40 * s

/-- DEC_STRM_WEIGHT (04, Table 4.11; 32 bits, RW). -/
def Reg.decStrmWeight (s : Nat) : Nat := 0x708004 + 0x40 * s

/-- DEC_STRM_STATE (04, Table 4.11; 32 bits, RO). -/
def Reg.decStrmState (s : Nat) : Nat := 0x708008 + 0x40 * s

/-- DEC_STRM_PICS (04, Table 4.11; 32 bits, RO). -/
def Reg.decStrmPics (s : Nat) : Nat := 0x70800c + 0x40 * s

/-- DEC_STRM_CONCEALED (04, Table 4.11; 32 bits, RO). -/
def Reg.decStrmConcealed (s : Nat) : Nat := 0x708010 + 0x40 * s

/-- DEC_STRM_ABANDONED (04, Table 4.11; 32 bits, RO). -/
def Reg.decStrmAbandoned (s : Nat) : Nat := 0x708014 + 0x40 * s

/-- DEC_STRM_SKIPPED (04, Table 4.11; 32 bits, RO). -/
def Reg.decStrmSkipped (s : Nat) : Nat := 0x708018 + 0x40 * s

/-- DEC_STRM_MISSING_REF (04, Table 4.11; 32 bits, RO). -/
def Reg.decStrmMissingRef (s : Nat) : Nat := 0x70801c + 0x40 * s

/-- DEC_STRM_LAST_COUNTER (04, Table 4.11; 32 bits, RO). -/
def Reg.decStrmLastCounter (s : Nat) : Nat := 0x708020 + 0x40 * s

/-- DEC_STRM_LAST_CRC (04, Table 4.11; 32 bits, RO). -/
def Reg.decStrmLastCrc (s : Nat) : Nat := 0x708024 + 0x40 * s

/-- DEC_STRM_LAST_TIME (04, Table 4.11; 64 bits, RO). -/
def Reg.decStrmLastTime (s : Nat) : Nat := 0x708028 + 0x40 * s

/-- ENC_CTRL (04, Table 4.13; 32 bits, RW). -/
def Reg.encCtrl : Nat := 0x800000

/-- ENC_STATUS (04, Table 4.13; 32 bits, RO). -/
def Reg.encStatus : Nat := 0x800004

/-- ENC_ERR (04, Table 4.13; 32 bits, RWS). -/
def Reg.encErr : Nat := 0x800008

/-- ENC_INT_EN (04, Table 4.13; 32 bits, RW). -/
def Reg.encIntEn : Nat := 0x80000c

/-- ENC_PIX_CNT (04, Table 4.13; 64 bits, RO). -/
def Reg.encPixCnt : Nat := 0x800010

/-- ENC_SESS_DESC (04, Table 4.13; 512 bits, RW). -/
def Reg.encSessDesc (n : Nat) : Nat := 0x801000 + 0x80 * n

/-- ENC_SESS_CMD (04, Table 4.13; 32 bits, WO). -/
def Reg.encSessCmd (n : Nat) : Nat := 0x801040 + 0x80 * n

/-- ENC_SESS_STATE (04, Table 4.13; 32 bits, RO). -/
def Reg.encSessState (n : Nat) : Nat := 0x801044 + 0x80 * n

/-- ENC_SESS_SNIPPETS (04, Table 4.13; 32 bits, RO). -/
def Reg.encSessSnippets (n : Nat) : Nat := 0x801048 + 0x80 * n

/-- ENC_SESS_BYTES (04, Table 4.13; 32 bits, RO). -/
def Reg.encSessBytes (n : Nat) : Nat := 0x80104c + 0x80 * n

/-- ENC_SESS_OVERRUN (04, Table 4.13; 32 bits, RO). -/
def Reg.encSessOverrun (n : Nat) : Nat := 0x801050 + 0x80 * n

/-- PFE_CTRL (05, Table 5.8; 32 bits, RW). -/
def Reg.pfeCtrl : Nat := 0x900000

/-- PFE_ERR (05, Table 5.8; 32 bits, RWS). -/
def Reg.pfeErr : Nat := 0x900004

/-- PFE_INT_EN (05, Table 5.8; 32 bits, RW). -/
def Reg.pfeIntEn : Nat := 0x900008

/-- PFE_DUAL_MISMATCH_CNT (05, Table 5.8; 32 bits, RO). -/
def Reg.pfeDualMismatchCnt : Nat := 0x90000c

/-- PFE_STATUS (05, Table 5.8; 32 bits, RO). -/
def Reg.pfeStatus (f : Nat) : Nat := 0x901000 + 0x1000 * f

/-- PFE_OUT_POS (05, Table 5.8; 64 bits, RO). -/
def Reg.pfeOutPos (f : Nat) : Nat := 0x901008 + 0x1000 * f

/-- PFE_BUSY_NS (05, Table 5.8; 64 bits, RO). -/
def Reg.pfeBusyNs (f : Nat) : Nat := 0x901010 + 0x1000 * f

/-- PFE_COEF_A (05, Table 5.8; 16 bits, RW). -/
def Reg.pfeCoefA (f : Nat) (p : Nat) (k : Nat) : Nat := 0x901800 + 0x1000 * f + 0x10 * p + 0x2 * k

/-- PFE_COEF_B (05, Table 5.8; 16 bits, RW). -/
def Reg.pfeCoefB (f : Nat) (p : Nat) (k : Nat) : Nat := 0x901c00 + 0x1000 * f + 0x10 * p + 0x2 * k

/-- PFE_VIEW (05, Table 5.8; 512 bits, RW). -/
def Reg.pfeView (s : Nat) (v : Nat) : Nat := 0x910000 + 0x200 * s + 0x40 * v

/-- PFE_STRM_CFG (05, Table 5.8; 32 bits, RW). -/
def Reg.pfeStrmCfg (s : Nat) : Nat := 0x910100 + 0x200 * s

/-- PFE_STRM_ENC (05, Table 5.8; 32 bits, RW). -/
def Reg.pfeStrmEnc (s : Nat) : Nat := 0x910104 + 0x200 * s

/-- PFE_STRM_BANDS (05, Table 5.8; 32 bits, RO). -/
def Reg.pfeStrmBands (s : Nat) : Nat := 0x910108 + 0x200 * s

/-- PFE_STRM_EMPTY (05, Table 5.8; 32 bits, RO). -/
def Reg.pfeStrmEmpty (s : Nat) : Nat := 0x91010c + 0x200 * s

/-- PFE_STRM_FULL (05, Table 5.8; 32 bits, RO). -/
def Reg.pfeStrmFull (s : Nat) : Nat := 0x910110 + 0x200 * s

/-- PFE_STRM_ROI_STALE (05, Table 5.8; 32 bits, RO). -/
def Reg.pfeStrmRoiStale (s : Nat) : Nat := 0x910114 + 0x200 * s

/-- PFE_STRM_ROI_LATE (05, Table 5.8; 32 bits, RO). -/
def Reg.pfeStrmRoiLate (s : Nat) : Nat := 0x910118 + 0x200 * s

/-- PFE_STRM_ROI_DROP (05, Table 5.8; 32 bits, RO). -/
def Reg.pfeStrmRoiDrop (s : Nat) : Nat := 0x91011c + 0x200 * s

/-- PFE_STRM_ADJUSTED (05, Table 5.8; 32 bits, RO). -/
def Reg.pfeStrmAdjusted (s : Nat) : Nat := 0x910120 + 0x200 * s

/-- PFE_STRM_NO_BUFFER (05, Table 5.8; 32 bits, RO). -/
def Reg.pfeStrmNoBuffer (s : Nat) : Nat := 0x910124 + 0x200 * s

/-- PFE_STRM_LAST_COUNTER (05, Table 5.8; 32 bits, RO). -/
def Reg.pfeStrmLastCounter (s : Nat) : Nat := 0x910128 + 0x200 * s

/-- TC_CAP (06, Table 6.9; 32 bits, RO). -/
def Reg.tcCap (c : Nat) : Nat := 0xa00000 + 0x10000 * c

/-- TC_CFG (06, Table 6.9; 32 bits, RO). -/
def Reg.tcCfg (c : Nat) : Nat := 0xa00004 + 0x10000 * c

/-- TC_STATUS (06, Table 6.9; 32 bits, RO). -/
def Reg.tcStatus (c : Nat) : Nat := 0xa00008 + 0x10000 * c

/-- TC_ARRAY_STATE (06, Table 6.9; 32 bits, RO). -/
def Reg.tcArrayState (c : Nat) : Nat := 0xa0000c + 0x10000 * c

/-- TC_ERR (06, Table 6.9; 32 bits, RWS). -/
def Reg.tcErr (c : Nat) : Nat := 0xa00010 + 0x10000 * c

/-- TC_INT_EN (06, Table 6.9; 32 bits, RW). -/
def Reg.tcIntEn (c : Nat) : Nat := 0xa00014 + 0x10000 * c

/-- TC_ERR_LOC (06, Table 6.9; 32 bits, RO). -/
def Reg.tcErrLoc (c : Nat) : Nat := 0xa00018 + 0x10000 * c

/-- TC_TILES (06, Table 6.9; 64 bits, RO). -/
def Reg.tcTiles (c : Nat) : Nat := 0xa00020 + 0x10000 * c

/-- TC_BEATS (06, Table 6.9; 64 bits, RO). -/
def Reg.tcBeats (c : Nat) : Nat := 0xa00028 + 0x10000 * c

/-- TC_STALL_WEIGHT_NS (06, Table 6.9; 64 bits, RO). -/
def Reg.tcStallWeightNs (c : Nat) : Nat := 0xa00030 + 0x10000 * c

/-- TC_STALL_FEED_NS (06, Table 6.9; 64 bits, RO). -/
def Reg.tcStallFeedNs (c : Nat) : Nat := 0xa00038 + 0x10000 * c

/-- TC_VEC_STEPS (06, Table 6.9; 64 bits, RO). -/
def Reg.tcVecSteps (c : Nat) : Nat := 0xa00040 + 0x10000 * c

/-- TC_FAILED_TILES (06, Table 6.9; 32 bits, RO). -/
def Reg.tcFailedTiles (c : Nat) : Nat := 0xa00048 + 0x10000 * c

/-- TC_POISON_OUT (06, Table 6.9; 32 bits, RO). -/
def Reg.tcPoisonOut (c : Nat) : Nat := 0xa0004c + 0x10000 * c

/-- TC_LAST_TILE (06, Table 6.9; 32 bits, RO). -/
def Reg.tcLastTile (c : Nat) : Nat := 0xa00050 + 0x10000 * c

/-- TC_LAST_SIG (06, Table 6.9; 32 bits, RO). -/
def Reg.tcLastSig (c : Nat) : Nat := 0xa00054 + 0x10000 * c

/-- TRK_ERR (10, Table 10.11; 32 bits, RWS). -/
def Reg.trkErr : Nat := 0xb00000

/-- TRK_INT_EN (10, Table 10.11; 32 bits, RW). -/
def Reg.trkIntEn : Nat := 0xb00004

/-- TRK_STATUS (10, Table 10.11; 32 bits, RO). -/
def Reg.trkStatus (t : Nat) : Nat := 0xb01000 + 0x1000 * t

/-- TRK_BUSY_NS (10, Table 10.11; 64 bits, RO). -/
def Reg.trkBusyNs (t : Nat) : Nat := 0xb01008 + 0x1000 * t

/-- TRK_BIDS (10, Table 10.11; 64 bits, RO). -/
def Reg.trkBids (t : Nat) : Nat := 0xb01010 + 0x1000 * t

/-- TRK_STRM_DESC (10, Table 10.11; 512 bits, RW). -/
def Reg.trkStrmDesc (s : Nat) : Nat := 0xb08000 + 0x80 * s

/-- TRK_STRM_FRAMES (10, Table 10.11; 32 bits, RO). -/
def Reg.trkStrmFrames (s : Nat) : Nat := 0xb08040 + 0x80 * s

/-- TRK_STRM_TRACKS (10, Table 10.11; 32 bits, RO). -/
def Reg.trkStrmTracks (s : Nat) : Nat := 0xb08044 + 0x80 * s

/-- TRK_STRM_POISON (10, Table 10.11; 32 bits, RO). -/
def Reg.trkStrmPoison (s : Nat) : Nat := 0xb08048 + 0x80 * s

/-- TRK_STRM_OVERFLOW (10, Table 10.11; 32 bits, RO). -/
def Reg.trkStrmOverflow (s : Nat) : Nat := 0xb0804c + 0x80 * s

/-- TRK_STRM_NEXT_ID (10, Table 10.11; 32 bits, RO). -/
def Reg.trkStrmNextId (s : Nat) : Nat := 0xb08050 + 0x80 * s

/-- COL_ERR (10, Table 10.12; 32 bits, RWS). -/
def Reg.colErr : Nat := 0xc00000

/-- COL_INT_EN (10, Table 10.12; 32 bits, RW). -/
def Reg.colIntEn : Nat := 0xc00004

/-- COL_UNITS (10, Table 10.12; 64 bits, RO). -/
def Reg.colUnits : Nat := 0xc00008

/-- COL_PORT_STATUS (10, Table 10.12; 32 bits, RO). -/
def Reg.colPortStatus (p : Nat) : Nat := 0xc01000 + 0x40 * p

/-- COL_PORT_WAIT_MAX (10, Table 10.12; 32 bits, RO). -/
def Reg.colPortWaitMax (p : Nat) : Nat := 0xc01004 + 0x40 * p

/-- COL_PART_DROPS (10, Table 10.12; 32 bits, RO). -/
def Reg.colPartDrops (p : Nat) : Nat := 0xc04000 + 0x40 * p

/-- COL_PART_STALL_NS (10, Table 10.12; 64 bits, RO). -/
def Reg.colPartStallNs (p : Nat) : Nat := 0xc04008 + 0x40 * p

/-- COL_STRM_CFG (10, Table 10.12; 32 bits, RW). -/
def Reg.colStrmCfg (s : Nat) : Nat := 0xc08000 + 0x40 * s

/-- COL_STRM_QUERY (10, Table 10.12; 32 bits, RW). -/
def Reg.colStrmQuery (s : Nat) : Nat := 0xc08004 + 0x40 * s

/-- COL_STRM_RESULT (10, Table 10.12; 32 bits, RO). -/
def Reg.colStrmResult (s : Nat) : Nat := 0xc08008 + 0x40 * s

/-- COL_STRM_LAST_CLOSE (10, Table 10.12; 32 bits, RO). -/
def Reg.colStrmLastClose (s : Nat) : Nat := 0xc0800c + 0x40 * s

/-- COL_STRM_RECORDS (10, Table 10.12; 32 bits, RO). -/
def Reg.colStrmRecords (s : Nat) : Nat := 0xc08010 + 0x40 * s

/-- COL_STRM_DROPS (10, Table 10.12; 32 bits, RO). -/
def Reg.colStrmDrops (s : Nat) : Nat := 0xc08014 + 0x40 * s

/-- HAL_SYNC_VALUE (11, Table 11.9; 64 bits, RO). -/
def Reg.halSyncValue (n : Nat) : Nat := 0x1000000 + 0x10 * n

/-- HAL_SYNC_SIGNAL (11, Table 11.9; 32 bits, WO). -/
def Reg.halSyncSignal (n : Nat) : Nat := 0x1000008 + 0x10 * n

/-- HAL_SYNC_RESET (11, Table 11.9; 32 bits, WO). -/
def Reg.halSyncReset (n : Nat) : Nat := 0x100000c + 0x10 * n

/-- HAL_QUEUE_DESC (11, Table 11.9; 512 bits, RW). -/
def Reg.halQueueDesc (q : Nat) : Nat := 0x1100000 + 0x40 * q

/-- HAL_WATCH (11, Table 11.9; 512 bits, RW). -/
def Reg.halWatch (w : Nat) : Nat := 0x1200000 + 0x40 * w

/-- HAL_ERR (11, Table 11.9; 32 bits, RWS). -/
def Reg.halErr : Nat := 0x1300000

/-- HAL_INT_EN (11, Table 11.9; 32 bits, RW). -/
def Reg.halIntEn : Nat := 0x1300004

/-- HAL_ERR_LOC (11, Table 11.9; 32 bits, RO). -/
def Reg.halErrLoc : Nat := 0x1300008

/-- HAL_OPS (11, Table 11.9; 64 bits, RO). -/
def Reg.halOps : Nat := 0x1300010

/-- HAL_WATCH_FIRED (11, Table 11.9; 32 bits, RO). -/
def Reg.halWatchFired : Nat := 0x1300018

/-- HAL_RANGE_SYNC (11, Table 11.9; 32 bits, RO). -/
def Reg.halRangeSync (p : Nat) : Nat := 0x1300100 + 0x10 * p

/-- HAL_RANGE_QUEUE (11, Table 11.9; 32 bits, RO). -/
def Reg.halRangeQueue (p : Nat) : Nat := 0x1300104 + 0x10 * p

/-- HAL_RANGE_WATCH (11, Table 11.9; 32 bits, RO). -/
def Reg.halRangeWatch (p : Nat) : Nat := 0x1300108 + 0x10 * p

/-- POOL_CTRL (11, Table 11.11; 32 bits, RW). -/
def Reg.poolCtrl : Nat := 0xe00000

/-- POOL_ERR (11, Table 11.11; 32 bits, RWS). -/
def Reg.poolErr : Nat := 0xe00004

/-- POOL_INT_EN (11, Table 11.11; 32 bits, RW). -/
def Reg.poolIntEn : Nat := 0xe00008

/-- POOL_ERR_LOC (11, Table 11.11; 32 bits, RO). -/
def Reg.poolErrLoc : Nat := 0xe0000c

/-- POOL_BUF_QUERY (11, Table 11.11; 32 bits, RW). -/
def Reg.poolBufQuery : Nat := 0xe00010

/-- POOL_BUF_DATA (11, Table 11.11; 64 bits, RO). -/
def Reg.poolBufData (i : Nat) : Nat := 0xe00018 + 0x8 * i

/-- POOL_OPS (11, Table 11.11; 64 bits, RO). -/
def Reg.poolOps : Nat := 0xe00030

/-- POOL_DESC (11, Table 11.11; 512 bits, RW). -/
def Reg.poolDesc (k : Nat) : Nat := 0xe10000 + 0x40 * k

/-- POOL_STAT (11, Table 11.11; 192 bits, RO). -/
def Reg.poolStat (k : Nat) : Nat := 0xe20000 + 0x20 * k

/-- POOL_HOST_OP (11, Table 11.11; 64 bits, WO). -/
def Reg.poolHostOp (p : Nat) : Nat := 0xe30000 + 0x10 * p

/-- POOL_HOST_RESULT (11, Table 11.11; 32 bits, RO). -/
def Reg.poolHostResult (p : Nat) : Nat := 0xe30008 + 0x10 * p

/-- DDR_CTRL (12, Table 12.10; 32 bits, RW). -/
def Reg.ddrCtrl : Nat := 0xf00000

/-- DDR_ERR (12, Table 12.10; 32 bits, RWS). -/
def Reg.ddrErr : Nat := 0xf00004

/-- DDR_INT_EN (12, Table 12.10; 32 bits, RW). -/
def Reg.ddrIntEn : Nat := 0xf00008

/-- DDR_REFRESH (12, Table 12.10; 32 bits, RW). -/
def Reg.ddrRefresh : Nat := 0xf0000c

/-- DDR_ZQ (12, Table 12.10; 32 bits, RW). -/
def Reg.ddrZq : Nat := 0xf00010

/-- DDR_CE_THRESH (12, Table 12.10; 32 bits, RW). -/
def Reg.ddrCeThresh : Nat := 0xf00014

/-- DDR_POP (12, Table 12.10; 32 bits, RO). -/
def Reg.ddrPop : Nat := 0xf00018

/-- DDR_HASH (12, Table 12.10; 64 bits, RO). -/
def Reg.ddrHash (i : Nat) : Nat := 0xf00020 + 0x8 * i

/-- DDR_CH_STATUS (12, Table 12.10; 32 bits, RO). -/
def Reg.ddrChStatus (x : Nat) : Nat := 0xf10000 + 0x10000 * x

/-- DDR_CH_CFG (12, Table 12.10; 32 bits, RO). -/
def Reg.ddrChCfg (x : Nat) : Nat := 0xf10004 + 0x10000 * x

/-- DDR_CE_CNT (12, Table 12.10; 32 bits, RO). -/
def Reg.ddrCeCnt (x : Nat) : Nat := 0xf10008 + 0x10000 * x

/-- DDR_UE_CNT (12, Table 12.10; 32 bits, RO). -/
def Reg.ddrUeCnt (x : Nat) : Nat := 0xf1000c + 0x10000 * x

/-- DDR_CA_RETRY_CNT (12, Table 12.10; 32 bits, RO). -/
def Reg.ddrCaRetryCnt (x : Nat) : Nat := 0xf10010 + 0x10000 * x

/-- DDR_CMD_FAIL_CNT (12, Table 12.10; 32 bits, RO). -/
def Reg.ddrCmdFailCnt (x : Nat) : Nat := 0xf10014 + 0x10000 * x

/-- DDR_SR_ENTRIES (12, Table 12.10; 32 bits, RO). -/
def Reg.ddrSrEntries (x : Nat) : Nat := 0xf10018 + 0x10000 * x

/-- DDR_ELOG_IDX (12, Table 12.10; 32 bits, RO). -/
def Reg.ddrElogIdx (x : Nat) : Nat := 0xf1001c + 0x10000 * x

/-- DDR_ELOG (12, Table 12.10; 256 bits, RO). -/
def Reg.ddrElog (x : Nat) (n : Nat) : Nat := 0xf10100 + 0x10000 * x + 0x20 * n

/-- DDR_TRAIN_LANE (12, Table 12.10; 32 bits, RO). -/
def Reg.ddrTrainLane (x : Nat) (l : Nat) : Nat := 0xf10300 + 0x10000 * x + 0x4 * l

/-- DDR_TRAIN_VREF (12, Table 12.10; 32 bits, RO). -/
def Reg.ddrTrainVref (x : Nat) (l : Nat) : Nat := 0xf10340 + 0x10000 * x + 0x4 * l

/-- MEM_ERR (12, Table 12.14; 32 bits, RWS). -/
def Reg.memErr : Nat := 0xf80000

/-- MEM_INT_EN (12, Table 12.14; 32 bits, RW). -/
def Reg.memIntEn : Nat := 0xf80004

/-- MEM_DMA_LIMIT (12, Table 12.14; 32 bits, RW). -/
def Reg.memDmaLimit : Nat := 0xf80008

/-- MEM_STARVE_LOC (12, Table 12.14; 32 bits, RO). -/
def Reg.memStarveLoc : Nat := 0xf8000c

/-- MEM_CE_CNT (12, Table 12.14; 32 bits, RO). -/
def Reg.memCeCnt : Nat := 0xf80010

/-- MEM_UE_CNT (12, Table 12.14; 32 bits, RO). -/
def Reg.memUeCnt : Nat := 0xf80014

/-- MEM_DMA_HALT (12, Table 12.14; 32 bits, RO). -/
def Reg.memDmaHalt : Nat := 0xf80018

/-- MEM_DMA_RESUME (12, Table 12.14; 32 bits, WO). -/
def Reg.memDmaResume : Nat := 0xf8001c

/-- MEM_ELOG_IDX (12, Table 12.14; 32 bits, RO). -/
def Reg.memElogIdx : Nat := 0xf80020

/-- MEM_ELOG (12, Table 12.14; 256 bits, RO). -/
def Reg.memElog (n : Nat) : Nat := 0xf80100 + 0x20 * n

/-- MEM_REPAIR (12, Table 12.14; 32 bits, RO). -/
def Reg.memRepair (i : Nat) : Nat := 0xf81000 + 0x4 * i

/-- MEM_SCRUB_BASE (12, Table 12.14; 64 bits, RW). -/
def Reg.memScrubBase : Nat := 0xf82000

/-- MEM_SCRUB_LEN (12, Table 12.14; 64 bits, RW). -/
def Reg.memScrubLen : Nat := 0xf82008

/-- MEM_SCRUB_CTRL (12, Table 12.14; 32 bits, RW). -/
def Reg.memScrubCtrl : Nat := 0xf82010

/-- MEM_SCRUB_CMD (12, Table 12.14; 32 bits, WO). -/
def Reg.memScrubCmd : Nat := 0xf82014

/-- MEM_SCRUB_STATUS (12, Table 12.14; 32 bits, RO). -/
def Reg.memScrubStatus : Nat := 0xf82018

/-- MEM_SCRUB_CE (12, Table 12.14; 32 bits, RO). -/
def Reg.memScrubCe : Nat := 0xf82020

/-- MEM_SCRUB_UE (12, Table 12.14; 32 bits, RO). -/
def Reg.memScrubUe : Nat := 0xf82024

/-- MEM_SCRUB_SKIPPED (12, Table 12.14; 32 bits, RO). -/
def Reg.memScrubSkipped : Nat := 0xf82028

/-- MEM_SCRUB_WRITTEN (12, Table 12.14; 32 bits, RO). -/
def Reg.memScrubWritten : Nat := 0xf8202c

/-- MEM_SCRUB_FIRST (12, Table 12.14; 64 bits, RO). -/
def Reg.memScrubFirst : Nat := 0xf82030

/-- MEM_SCRUB_LAST (12, Table 12.14; 64 bits, RO). -/
def Reg.memScrubLast : Nat := 0xf82038

/-- SAF_STATUS (13, Table 13.12; 32 bits, RO). -/
def Reg.safStatus : Nat := 0x300000

/-- SAF_ERR (13, Table 13.12; 32 bits, RWS). -/
def Reg.safErr : Nat := 0x300004

/-- SAF_INT_EN (13, Table 13.12; 32 bits, RW). -/
def Reg.safIntEn : Nat := 0x300008

/-- SAF_FAULT_CAUSE (13, Table 13.12; 32 bits, RO). -/
def Reg.safFaultCause : Nat := 0x30000c

/-- SAF_FAULT_TB (13, Table 13.12; 64 bits, RO). -/
def Reg.safFaultTb : Nat := 0x300010

/-- SAF_FAULT_N_TB (13, Table 13.12; 64 bits, RO). -/
def Reg.safFaultNTb : Nat := 0x300018

/-- SAF_FAULT_CNT (13, Table 13.12; 32 bits, RO). -/
def Reg.safFaultCnt : Nat := 0x300020

/-- SAF_SAFE_CNT (13, Table 13.12; 32 bits, RO). -/
def Reg.safSafeCnt : Nat := 0x300024

/-- SAF_TRANSIENT_CNT (13, Table 13.12; 32 bits, RO). -/
def Reg.safTransientCnt : Nat := 0x300028

/-- SAF_WITHDRAWN_CNT (13, Table 13.12; 32 bits, RO). -/
def Reg.safWithdrawnCnt : Nat := 0x30002c

/-- SAF_PAIR_STATE (13, Table 13.12; 32 bits, RO). -/
def Reg.safPairState : Nat := 0x300030

/-- SAF_CTRL (13, Table 13.12; 32 bits, RW). -/
def Reg.safCtrl : Nat := 0x300034

/-- SAF_LIMITS0 (13, Table 13.12; 32 bits, RO). -/
def Reg.safLimits0 : Nat := 0x300038

/-- SAF_LIMITS1 (13, Table 13.12; 32 bits, RO). -/
def Reg.safLimits1 : Nat := 0x30003c

/-- SAF_INJ_PASS (13, Table 13.12; 32 bits, RO). -/
def Reg.safInjPass : Nat := 0x300040

/-- SAF_INJ_FAIL (13, Table 13.12; 32 bits, RO). -/
def Reg.safInjFail : Nat := 0x300044

/-- SAF_FENCE_LOC (13, Table 13.12; 32 bits, RO). -/
def Reg.safFenceLoc : Nat := 0x300048

/-- SAF_FENCE_ADDR (13, Table 13.12; 64 bits, RO). -/
def Reg.safFenceAddr : Nat := 0x300050

/-- SAF_TEST_OVERDUE (13, Table 13.12; 64 bits, RO). -/
def Reg.safTestOverdue : Nat := 0x300058

/-- SAF_TEST_FAIL (13, Table 13.12; 64 bits, RO). -/
def Reg.safTestFail : Nat := 0x300060

/-- SAF_RESTART_NS (13, Table 13.12; 32 bits, RO). -/
def Reg.safRestartNs : Nat := 0x300068

/-- SAF_TEST_LAST (13, Table 13.12; 64 bits, RO). -/
def Reg.safTestLast (r : Nat) : Nat := 0x300100 + 0x8 * r

/-- SAF_PART (13, Table 13.12; 32 bits, RO). -/
def Reg.safPart (p : Nat) : Nat := 0x300300 + 0x10 * p

/-- SAF_PART_WITHDRAWN (13, Table 13.12; 32 bits, RO). -/
def Reg.safPartWithdrawn (p : Nat) : Nat := 0x300304 + 0x10 * p

/-- MGMT_MBX_CMD (14, Table 14.8; 32 bits, WO). The PF's mailbox lies at 0x1000, a VF's in its window at 0x100. -/
def Reg.mgmtMbxCmd (f : Nat) : Nat := mbxBase f + 0x0

/-- MGMT_MBX_STATUS (14, Table 14.8; 32 bits, RO). The PF's mailbox lies at 0x1000, a VF's in its window at 0x100. -/
def Reg.mgmtMbxStatus (f : Nat) : Nat := mbxBase f + 0x4

/-- MGMT_MBX_IGNORED (14, Table 14.8; 32 bits, RO). The PF's mailbox lies at 0x1000, a VF's in its window at 0x100. -/
def Reg.mgmtMbxIgnored (f : Nat) : Nat := mbxBase f + 0x8

/-- MGMT_MBX_ARG (14, Table 14.8; 512 bits, RW). The PF's mailbox lies at 0x1000, a VF's in its window at 0x100. -/
def Reg.mgmtMbxArg (f : Nat) : Nat := mbxBase f + 0x40

/-- MGMT_MBX_RESULT (14, Table 14.8; 512 bits, RO). The PF's mailbox lies at 0x1000, a VF's in its window at 0x100. -/
def Reg.mgmtMbxResult (f : Nat) : Nat := mbxBase f + 0x80

/-- MGMT_ID0 (14, Table 14.9; 32 bits, RO). -/
def Reg.mgmtId0 : Nat := 0x0

/-- MGMT_ID1 (14, Table 14.9; 32 bits, RO). -/
def Reg.mgmtId1 : Nat := 0x4

/-- MGMT_CAP_ARRAY_EN (14, Table 14.9; 32 bits, RO). -/
def Reg.mgmtCapArrayEn : Nat := 0x8

/-- MGMT_STATUS (14, Table 14.9; 32 bits, RO). -/
def Reg.mgmtStatus : Nat := 0xc

/-- MGMT_FW_VER (14, Table 14.9; 32 bits, RO). -/
def Reg.mgmtFwVer : Nat := 0x10

/-- MGMT_IMAGE_VER (14, Table 14.9; 32 bits, RO). -/
def Reg.mgmtImageVer : Nat := 0x14

/-- MGMT_LINK (14, Table 14.9; 32 bits, RO). -/
def Reg.mgmtLink : Nat := 0x18

/-- MGMT_ERR (14, Table 14.9; 32 bits, RWS). -/
def Reg.mgmtErr : Nat := 0x1c

/-- MGMT_INT_EN (14, Table 14.9; 32 bits, RW). -/
def Reg.mgmtIntEn : Nat := 0x20

/-- MGMT_UR_CNT (14, Table 14.9; 32 bits, RO). -/
def Reg.mgmtUrCnt : Nat := 0x24

/-- MGMT_UR_LOG (14, Table 14.9; 32 bits, RO). -/
def Reg.mgmtUrLog : Nat := 0x28

/-- MGMT_UR_ADDR (14, Table 14.9; 64 bits, RO). -/
def Reg.mgmtUrAddr : Nat := 0x30

/-- MGMT_I2C_CTRL (14, Table 14.9; 32 bits, RW). -/
def Reg.mgmtI2cCtrl : Nat := 0x38

/-- MGMT_FUNC_STATE (14, Table 14.9; 32 bits, RO). -/
def Reg.mgmtFuncState : Nat := 0x3c

/-- MGMT_VF_ID (14, Table 14.10; 32 bits, RO). In the window of VF `p`. -/
def Reg.mgmtVfId (p : Nat) : Nat := vfBase p + 0x0

/-- MGMT_VF_STATUS (14, Table 14.10; 32 bits, RO). In the window of VF `p`. -/
def Reg.mgmtVfStatus (p : Nat) : Nat := vfBase p + 0x4

/-- MGMT_VF_RANGE_SYNC (14, Table 14.10; 32 bits, RO). In the window of VF `p`. -/
def Reg.mgmtVfRangeSync (p : Nat) : Nat := vfBase p + 0x8

/-- MGMT_VF_RANGE_QUEUE (14, Table 14.10; 32 bits, RO). In the window of VF `p`. -/
def Reg.mgmtVfRangeQueue (p : Nat) : Nat := vfBase p + 0xc

/-- MGMT_VF_RANGE_WATCH (14, Table 14.10; 32 bits, RO). In the window of VF `p`. -/
def Reg.mgmtVfRangeWatch (p : Nat) : Nat := vfBase p + 0x10

/-- SEC_BOOT_STATUS (16, Table 16.8; 32 bits, RO). -/
def Reg.secBootStatus : Nat := 0x2080000

/-- SEC_BOOT_ERR (16, Table 16.8; 32 bits, RWS). -/
def Reg.secBootErr : Nat := 0x2080004

/-- SEC_BOOT_INT_EN (16, Table 16.8; 32 bits, RW). -/
def Reg.secBootIntEn : Nat := 0x2080008

/-- SEC_BOOT_TB (16, Table 16.8; 64 bits, RO). -/
def Reg.secBootTb (p : Nat) : Nat := 0x2080010 + 0x8 * p

/-- SEC_CAL_ROWS (16, Table 16.8; 32 bits, RO). -/
def Reg.secCalRows : Nat := 0x2080100

/-- SEC_CAL_SHADOW (16, Table 16.8; 32 bits, RW). -/
def Reg.secCalShadow (i : Nat) : Nat := 0x2090000 + 0x4 * i

/-- SEC_CAL_FUSE (16, Table 16.8; 32 bits, RO). -/
def Reg.secCalFuse (i : Nat) : Nat := 0x2091000 + 0x4 * i

/-- SEC_STATUS (17, Table 17.7; 32 bits, RO). -/
def Reg.secStatus : Nat := 0x2000000

/-- SEC_ERR (17, Table 17.7; 32 bits, RWS). -/
def Reg.secErr : Nat := 0x2000004

/-- SEC_INT_EN (17, Table 17.7; 32 bits, RW). -/
def Reg.secIntEn : Nat := 0x2000008

/-- SEC_REJECT (17, Table 17.7; 128 bits, RO). -/
def Reg.secReject : Nat := 0x2000010

/-- SEC_VERIFY (17, Table 17.7; 32 bits, RO). -/
def Reg.secVerify : Nat := 0x2000020

/-- SEC_FUSE_CMD (17, Table 17.7; 32 bits, WO). -/
def Reg.secFuseCmd : Nat := 0x2000040

/-- SEC_FUSE_STATUS (17, Table 17.7; 32 bits, RO). -/
def Reg.secFuseStatus : Nat := 0x2000044

/-- SEC_JTAG_RELOCK (17, Table 17.7; 32 bits, WO). -/
def Reg.secJtagRelock : Nat := 0x2000048

/-- SEC_JTAG_FAIL_CNT (17, Table 17.7; 32 bits, RO). -/
def Reg.secJtagFailCnt : Nat := 0x200004c

/-- SEC_DEV_SERIAL (17, Table 17.7; 64 bits, RO). -/
def Reg.secDevSerial : Nat := 0x2000060

/-- SEC_ID_PUB (17, Table 17.7; 512 bits, RO). -/
def Reg.secIdPub : Nat := 0x2000100

/-- SEC_ID_CERT_LEN (17, Table 17.7; 32 bits, RO). -/
def Reg.secIdCertLen : Nat := 0x2000140

/-- SEC_KEY_HASH (17, Table 17.7; 256 bits, RO). -/
def Reg.secKeyHash (k : Nat) : Nat := 0x2000200 + 0x20 * k

/-- SEC_ID_CERT (17, Table 17.7; 16384 bits, RO). -/
def Reg.secIdCert : Nat := 0x2001000

/-- ERR_SUMMARY (19, Table 19.4; 32 bits, RO). -/
def Reg.errSummary : Nat := 0x400000

/-- ERR_FIRST_STATUS (19, Table 19.4; 32 bits, RWS). -/
def Reg.errFirstStatus : Nat := 0x400004

/-- ERR_FIRST_SRC (19, Table 19.4; 32 bits, RO). -/
def Reg.errFirstSrc : Nat := 0x400008

/-- ERR_FIRST_AUX (19, Table 19.4; 32 bits, RO). -/
def Reg.errFirstAux : Nat := 0x40000c

/-- ERR_FIRST_ADDR (19, Table 19.4; 64 bits, RO). -/
def Reg.errFirstAddr : Nat := 0x400010

/-- ERR_FIRST_TB (19, Table 19.4; 64 bits, RO). -/
def Reg.errFirstTb : Nat := 0x400018

/-- ERR_PLN (19, Table 19.4; 32 bits, RWS). -/
def Reg.errPln : Nat := 0x400020

/-- ERR_PLN_INT_EN (19, Table 19.4; 32 bits, RW). -/
def Reg.errPlnIntEn : Nat := 0x400024

/-- ERR_TOTAL (19, Table 19.4; 64 bits, RO). -/
def Reg.errTotal : Nat := 0x400028

/-- ERR_LAST_SRC (19, Table 19.4; 32 bits, RO). -/
def Reg.errLastSrc : Nat := 0x400030

/-- ERR_LAST_TB (19, Table 19.4; 64 bits, RO). -/
def Reg.errLastTb : Nat := 0x400038

/-- ERR_EVENT_CNT (19, Table 19.4; 32 bits, RO). -/
def Reg.errEventCnt (i : Nat) : Nat := 0x400100 + 0x4 * i

/-- Access codes of R9: read-only, read-write, sticky write-1-to-clear, write-only. -/
inductive RegAcc where
  | ro | rw | rws | wo
  deriving DecidableEq, Repr

/-- One row of a register table: first address, bytes of one copy, stride and count of the copies, stride and count of copies inside one, access code, writable bits of each word. -/
structure RegRow where
  base : Nat
  bytes : Nat
  s1 : Nat
  c1 : Nat
  s2 : Nat
  c2 : Nat
  acc : RegAcc
  mask : Nat
  deriving DecidableEq, Repr

/-- Does the row hold address `a`? -/
def RegRow.holds (r : RegRow) (a : Nat) : Bool :=
  if a < r.base then false else
  let x := a - r.base
  if r.s1 = 0 then decide (x < r.bytes) else
  let y := x % r.s1
  decide (x / r.s1 < r.c1) &&
    (if r.s2 = 0 then decide (y < r.bytes) else decide (y / r.s2 < r.c2) && decide (y % r.s2 < r.bytes))

/-- The rows of chapter 02's register tables. -/
def regRows02 : List RegRow := [
  ⟨0x100000, 8, 0, 1, 0, 1, .ro, 0x0⟩,
  ⟨0x100008, 4, 0, 1, 0, 1, .rw, 0x33ff⟩,
  ⟨0x10000c, 4, 0, 1, 0, 1, .ro, 0x0⟩,
  ⟨0x100010, 4, 0, 1, 0, 1, .rw, 0xffffffff⟩,
  ⟨0x100014, 4, 0, 1, 0, 1, .wo, 0xffffffff⟩,
  ⟨0x100018, 4, 0, 1, 0, 1, .ro, 0x0⟩,
  ⟨0x100020, 8, 0, 1, 0, 1, .ro, 0x0⟩,
  ⟨0x100028, 8, 0, 1, 0, 1, .wo, 0xffffffff⟩,
  ⟨0x100030, 8, 0, 1, 0, 1, .ro, 0x0⟩,
  ⟨0x100038, 4, 0, 1, 0, 1, .ro, 0x0⟩,
  ⟨0x10003c, 4, 0, 1, 0, 1, .rws, 0x1f⟩,
  ⟨0x100040, 4, 0, 1, 0, 1, .ro, 0x0⟩,
  ⟨0x200000, 4, 0, 1, 0, 1, .ro, 0x0⟩,
  ⟨0x200004, 4, 0, 1, 0, 1, .rw, 0x7ff⟩,
  ⟨0x200008, 4, 0, 1, 0, 1, .rw, 0xffffffff⟩,
  ⟨0x20000c, 4, 0, 1, 0, 1, .ro, 0x0⟩,
  ⟨0x200010, 4, 0, 1, 0, 1, .ro, 0x0⟩,
  ⟨0x200014, 4, 0, 1, 0, 1, .ro, 0x0⟩,
  ⟨0x200018, 4, 0, 1, 0, 1, .ro, 0x0⟩,
  ⟨0x20001c, 4, 0, 1, 0, 1, .ro, 0x0⟩,
  ⟨0x200020, 4, 0, 1, 0, 1, .ro, 0x0⟩,
  ⟨0x200024, 4, 0, 1, 0, 1, .ro, 0x0⟩,
  ⟨0x200028, 4, 0, 1, 0, 1, .rw, 0x1f⟩,
  ⟨0x20002c, 4, 0, 1, 0, 1, .ro, 0x0⟩,
  ⟨0x200030, 4, 0, 1, 0, 1, .ro, 0x0⟩,
  ⟨0x200034, 4, 0, 1, 0, 1, .ro, 0x0⟩,
  ⟨0x200040, 4, 4, 12, 0, 1, .ro, 0x0⟩,
  ⟨0x200070, 4, 0, 1, 0, 1, .rws, 0x7ff⟩,
  ⟨0x200080, 4, 4, 16, 0, 1, .ro, 0x0⟩,
  ⟨0x200100, 4, 4, 102, 0, 1, .ro, 0x0⟩]

/-- The rows of chapter 03's register tables. -/
def regRows03 : List RegRow := [
  ⟨0x500000, 4, 4096, 8, 0, 1, .rw, 0xff⟩,
  ⟨0x500004, 4, 4096, 8, 0, 1, .ro, 0x0⟩,
  ⟨0x500008, 4, 4096, 8, 0, 1, .rws, 0xff⟩,
  ⟨0x50000c, 4, 4096, 8, 0, 1, .rw, 0xff⟩,
  ⟨0x500010, 4, 4096, 8, 0, 1, .ro, 0x0⟩,
  ⟨0x500014, 4, 4096, 8, 0, 1, .ro, 0x0⟩,
  ⟨0x500018, 4, 4096, 8, 0, 1, .ro, 0x0⟩,
  ⟨0x600000, 4, 4096, 2, 0, 1, .rw, 0x3⟩,
  ⟨0x600004, 4, 4096, 2, 0, 1, .rw, 0xffff⟩,
  ⟨0x600008, 4, 4096, 2, 0, 1, .ro, 0x0⟩,
  ⟨0x60000c, 4, 4096, 2, 0, 1, .rws, 0x3f⟩,
  ⟨0x600010, 4, 4096, 2, 0, 1, .rw, 0x3f⟩,
  ⟨0x600014, 4, 4096, 2, 0, 1, .ro, 0x0⟩,
  ⟨0x600018, 4, 4096, 2, 0, 1, .ro, 0x0⟩,
  ⟨0x60001c, 4, 4096, 2, 4, 5, .ro, 0x0⟩,
  ⟨0x600030, 4, 4096, 2, 0, 1, .ro, 0x0⟩,
  ⟨0x600034, 4, 4096, 2, 0, 1, .ro, 0x0⟩,
  ⟨0x608000, 4, 64, 64, 0, 1, .ro, 0x0⟩,
  ⟨0x508000, 4, 64, 32, 0, 1, .ro, 0x0⟩,
  ⟨0x608004, 4, 64, 64, 0, 1, .ro, 0x0⟩,
  ⟨0x508004, 4, 64, 32, 0, 1, .ro, 0x0⟩,
  ⟨0x608008, 4, 64, 64, 0, 1, .ro, 0x0⟩,
  ⟨0x508008, 4, 64, 32, 0, 1, .ro, 0x0⟩,
  ⟨0x60800c, 4, 64, 64, 0, 1, .ro, 0x0⟩,
  ⟨0x50800c, 4, 64, 32, 0, 1, .ro, 0x0⟩,
  ⟨0x608010, 4, 64, 64, 0, 1, .ro, 0x0⟩,
  ⟨0x508010, 4, 64, 32, 0, 1, .ro, 0x0⟩,
  ⟨0x608014, 4, 64, 64, 0, 1, .ro, 0x0⟩,
  ⟨0x508014, 4, 64, 32, 0, 1, .ro, 0x0⟩,
  ⟨0x608018, 4, 64, 64, 0, 1, .ro, 0x0⟩,
  ⟨0x508018, 4, 64, 32, 0, 1, .ro, 0x0⟩,
  ⟨0x60801c, 4, 64, 64, 0, 1, .ro, 0x0⟩,
  ⟨0x50801c, 4, 64, 32, 0, 1, .ro, 0x0⟩,
  ⟨0x608020, 8, 64, 64, 0, 1, .ro, 0x0⟩,
  ⟨0x508020, 8, 64, 32, 0, 1, .ro, 0x0⟩,
  ⟨0x608028, 4, 64, 64, 0, 1, .ro, 0x0⟩,
  ⟨0x508028, 4, 64, 32, 0, 1, .ro, 0x0⟩,
  ⟨0x610000, 64, 64, 128, 0, 1, .rw, 0xffffffff⟩]

/-- The rows of chapter 04's register tables. -/
def regRows04 : List RegRow := [
  ⟨0x700000, 4, 0, 1, 0, 1, .rw, 0xffffff⟩,
  ⟨0x700004, 4, 0, 1, 0, 1, .rws, 0x1ff⟩,
  ⟨0x700008, 4, 0, 1, 0, 1, .rw, 0x1ff⟩,
  ⟨0x70000c, 4, 0, 1, 0, 1, .ro, 0x0⟩,
  ⟨0x701000, 4, 4096, 4, 0, 1, .ro, 0x0⟩,
  ⟨0x701008, 8, 4096, 4, 0, 1, .ro, 0x0⟩,
  ⟨0x701010, 8, 4096, 4, 0, 1, .ro, 0x0⟩,
  ⟨0x701018, 4, 4096, 4, 0, 1, .ro, 0x0⟩,
  ⟨0x708000, 4, 64, 64, 0, 1, .ro, 0x0⟩,
  ⟨0x708004, 4, 64, 64, 0, 1, .rw, 0xff⟩,
  ⟨0x708008, 4, 64, 64, 0, 1, .ro, 0x0⟩,
  ⟨0x70800c, 4, 64, 64, 0, 1, .ro, 0x0⟩,
  ⟨0x708010, 4, 64, 64, 0, 1, .ro, 0x0⟩,
  ⟨0x708014, 4, 64, 64, 0, 1, .ro, 0x0⟩,
  ⟨0x708018, 4, 64, 64, 0, 1, .ro, 0x0⟩,
  ⟨0x70801c, 4, 64, 64, 0, 1, .ro, 0x0⟩,
  ⟨0x708020, 4, 64, 64, 0, 1, .ro, 0x0⟩,
  ⟨0x708024, 4, 64, 64, 0, 1, .ro, 0x0⟩,
  ⟨0x708028, 8, 64, 64, 0, 1, .ro, 0x0⟩,
  ⟨0x800000, 4, 0, 1, 0, 1, .rw, 0x1⟩,
  ⟨0x800004, 4, 0, 1, 0, 1, .ro, 0x0⟩,
  ⟨0x800008, 4, 0, 1, 0, 1, .rws, 0x7⟩,
  ⟨0x80000c, 4, 0, 1, 0, 1, .rw, 0x7⟩,
  ⟨0x800010, 8, 0, 1, 0, 1, .ro, 0x0⟩,
  ⟨0x801000, 64, 128, 16, 0, 1, .rw, 0xffffffff⟩,
  ⟨0x801040, 4, 128, 16, 0, 1, .wo, 0xffffffff⟩,
  ⟨0x801044, 4, 128, 16, 0, 1, .ro, 0x0⟩,
  ⟨0x801048, 4, 128, 16, 0, 1, .ro, 0x0⟩,
  ⟨0x80104c, 4, 128, 16, 0, 1, .ro, 0x0⟩,
  ⟨0x801050, 4, 128, 16, 0, 1, .ro, 0x0⟩]

/-- The rows of chapter 05's register tables. -/
def regRows05 : List RegRow := [
  ⟨0x900000, 4, 0, 1, 0, 1, .rw, 0x3fff⟩,
  ⟨0x900004, 4, 0, 1, 0, 1, .rws, 0xff⟩,
  ⟨0x900008, 4, 0, 1, 0, 1, .rw, 0xff⟩,
  ⟨0x90000c, 4, 0, 1, 0, 1, .ro, 0x0⟩,
  ⟨0x901000, 4, 4096, 4, 0, 1, .ro, 0x0⟩,
  ⟨0x901008, 8, 4096, 4, 0, 1, .ro, 0x0⟩,
  ⟨0x901010, 8, 4096, 4, 0, 1, .ro, 0x0⟩,
  ⟨0x901800, 1024, 4096, 4, 0, 1, .rw, 0xffffffff⟩,
  ⟨0x901c00, 1024, 4096, 4, 0, 1, .rw, 0xffffffff⟩,
  ⟨0x910000, 64, 512, 96, 64, 4, .rw, 0xffffffff⟩,
  ⟨0x910100, 4, 512, 96, 0, 1, .rw, 0xff7fff⟩,
  ⟨0x910104, 4, 512, 96, 0, 1, .rw, 0xffffffff⟩,
  ⟨0x910108, 4, 512, 96, 0, 1, .ro, 0x0⟩,
  ⟨0x91010c, 4, 512, 96, 0, 1, .ro, 0x0⟩,
  ⟨0x910110, 4, 512, 96, 0, 1, .ro, 0x0⟩,
  ⟨0x910114, 4, 512, 96, 0, 1, .ro, 0x0⟩,
  ⟨0x910118, 4, 512, 96, 0, 1, .ro, 0x0⟩,
  ⟨0x91011c, 4, 512, 96, 0, 1, .ro, 0x0⟩,
  ⟨0x910120, 4, 512, 96, 0, 1, .ro, 0x0⟩,
  ⟨0x910124, 4, 512, 96, 0, 1, .ro, 0x0⟩,
  ⟨0x910128, 4, 512, 96, 0, 1, .ro, 0x0⟩]

/-- The rows of chapter 06's register tables. -/
def regRows06 : List RegRow := [
  ⟨0xa00000, 4, 65536, 8, 0, 1, .ro, 0x0⟩,
  ⟨0xa00004, 4, 65536, 8, 0, 1, .ro, 0x0⟩,
  ⟨0xa00008, 4, 65536, 8, 0, 1, .ro, 0x0⟩,
  ⟨0xa0000c, 4, 65536, 8, 0, 1, .ro, 0x0⟩,
  ⟨0xa00010, 4, 65536, 8, 0, 1, .rws, 0xff⟩,
  ⟨0xa00014, 4, 65536, 8, 0, 1, .rw, 0xff⟩,
  ⟨0xa00018, 4, 65536, 8, 0, 1, .ro, 0x0⟩,
  ⟨0xa00020, 8, 65536, 8, 0, 1, .ro, 0x0⟩,
  ⟨0xa00028, 8, 65536, 8, 0, 1, .ro, 0x0⟩,
  ⟨0xa00030, 8, 65536, 8, 0, 1, .ro, 0x0⟩,
  ⟨0xa00038, 8, 65536, 8, 0, 1, .ro, 0x0⟩,
  ⟨0xa00040, 8, 65536, 8, 0, 1, .ro, 0x0⟩,
  ⟨0xa00048, 4, 65536, 8, 0, 1, .ro, 0x0⟩,
  ⟨0xa0004c, 4, 65536, 8, 0, 1, .ro, 0x0⟩,
  ⟨0xa00050, 4, 65536, 8, 0, 1, .ro, 0x0⟩,
  ⟨0xa00054, 4, 65536, 8, 0, 1, .ro, 0x0⟩]

/-- The rows of chapter 10's register tables. -/
def regRows10 : List RegRow := [
  ⟨0xb00000, 4, 0, 1, 0, 1, .rws, 0x7f⟩,
  ⟨0xb00004, 4, 0, 1, 0, 1, .rw, 0x7f⟩,
  ⟨0xb01000, 4, 4096, 2, 0, 1, .ro, 0x0⟩,
  ⟨0xb01008, 8, 4096, 2, 0, 1, .ro, 0x0⟩,
  ⟨0xb01010, 8, 4096, 2, 0, 1, .ro, 0x0⟩,
  ⟨0xb08000, 64, 128, 96, 0, 1, .rw, 0xffffffff⟩,
  ⟨0xb08040, 4, 128, 96, 0, 1, .ro, 0x0⟩,
  ⟨0xb08044, 4, 128, 96, 0, 1, .ro, 0x0⟩,
  ⟨0xb08048, 4, 128, 96, 0, 1, .ro, 0x0⟩,
  ⟨0xb0804c, 4, 128, 96, 0, 1, .ro, 0x0⟩,
  ⟨0xb08050, 4, 128, 96, 0, 1, .ro, 0x0⟩,
  ⟨0xc00000, 4, 0, 1, 0, 1, .rws, 0x1f⟩,
  ⟨0xc00004, 4, 0, 1, 0, 1, .rw, 0x1f⟩,
  ⟨0xc00008, 8, 0, 1, 0, 1, .ro, 0x0⟩,
  ⟨0xc01000, 4, 64, 18, 0, 1, .ro, 0x0⟩,
  ⟨0xc01004, 4, 64, 18, 0, 1, .ro, 0x0⟩,
  ⟨0xc04000, 4, 64, 16, 0, 1, .ro, 0x0⟩,
  ⟨0xc04008, 8, 64, 16, 0, 1, .ro, 0x0⟩,
  ⟨0xc08000, 4, 64, 96, 0, 1, .rw, 0x7fffff⟩,
  ⟨0xc08004, 4, 64, 96, 0, 1, .rw, 0xffffffff⟩,
  ⟨0xc08008, 4, 64, 96, 0, 1, .ro, 0x0⟩,
  ⟨0xc0800c, 4, 64, 96, 0, 1, .ro, 0x0⟩,
  ⟨0xc08010, 4, 64, 96, 0, 1, .ro, 0x0⟩,
  ⟨0xc08014, 4, 64, 96, 0, 1, .ro, 0x0⟩]

/-- The rows of chapter 11's register tables. -/
def regRows11 : List RegRow := [
  ⟨0x1000000, 8, 16, 65536, 0, 1, .ro, 0x0⟩,
  ⟨0x1000008, 4, 16, 65536, 0, 1, .wo, 0xffffffff⟩,
  ⟨0x100000c, 4, 16, 65536, 0, 1, .wo, 0xffffffff⟩,
  ⟨0x1100000, 64, 64, 16384, 0, 1, .rw, 0xffffffff⟩,
  ⟨0x1200000, 64, 64, 4096, 0, 1, .rw, 0xffffffff⟩,
  ⟨0x1300000, 4, 0, 1, 0, 1, .rws, 0xff⟩,
  ⟨0x1300004, 4, 0, 1, 0, 1, .rw, 0xff⟩,
  ⟨0x1300008, 4, 0, 1, 0, 1, .ro, 0x0⟩,
  ⟨0x1300010, 8, 0, 1, 0, 1, .ro, 0x0⟩,
  ⟨0x1300018, 4, 0, 1, 0, 1, .ro, 0x0⟩,
  ⟨0x1300100, 4, 16, 16, 0, 1, .ro, 0x0⟩,
  ⟨0x1300104, 4, 16, 16, 0, 1, .ro, 0x0⟩,
  ⟨0x1300108, 4, 16, 16, 0, 1, .ro, 0x0⟩,
  ⟨0xe00000, 4, 0, 1, 0, 1, .rw, 0xffff⟩,
  ⟨0xe00004, 4, 0, 1, 0, 1, .rws, 0x1ff⟩,
  ⟨0xe00008, 4, 0, 1, 0, 1, .rw, 0x1ff⟩,
  ⟨0xe0000c, 4, 0, 1, 0, 1, .ro, 0x0⟩,
  ⟨0xe00010, 4, 0, 1, 0, 1, .rw, 0xffffffff⟩,
  ⟨0xe00018, 8, 8, 2, 0, 1, .ro, 0x0⟩,
  ⟨0xe00030, 8, 0, 1, 0, 1, .ro, 0x0⟩,
  ⟨0xe10000, 64, 64, 256, 0, 1, .rw, 0xffffffff⟩,
  ⟨0xe20000, 24, 32, 256, 0, 1, .ro, 0x0⟩,
  ⟨0xe30000, 8, 16, 16, 0, 1, .wo, 0xffffffff⟩,
  ⟨0xe30008, 4, 16, 16, 0, 1, .ro, 0x0⟩]

/-- The rows of chapter 12's register tables. -/
def regRows12 : List RegRow := [
  ⟨0xf00000, 4, 0, 1, 0, 1, .rw, 0xffffffff⟩,
  ⟨0xf00004, 4, 0, 1, 0, 1, .rws, 0xff⟩,
  ⟨0xf00008, 4, 0, 1, 0, 1, .rw, 0xff⟩,
  ⟨0xf0000c, 4, 0, 1, 0, 1, .rw, 0xff03⟩,
  ⟨0xf00010, 4, 0, 1, 0, 1, .rw, 0xffff⟩,
  ⟨0xf00014, 4, 0, 1, 0, 1, .rw, 0xffffffff⟩,
  ⟨0xf00018, 4, 0, 1, 0, 1, .ro, 0x0⟩,
  ⟨0xf00020, 8, 8, 7, 0, 1, .ro, 0x0⟩,
  ⟨0xf10000, 4, 65536, 4, 0, 1, .ro, 0x0⟩,
  ⟨0xf10004, 4, 65536, 4, 0, 1, .ro, 0x0⟩,
  ⟨0xf10008, 4, 65536, 4, 0, 1, .ro, 0x0⟩,
  ⟨0xf1000c, 4, 65536, 4, 0, 1, .ro, 0x0⟩,
  ⟨0xf10010, 4, 65536, 4, 0, 1, .ro, 0x0⟩,
  ⟨0xf10014, 4, 65536, 4, 0, 1, .ro, 0x0⟩,
  ⟨0xf10018, 4, 65536, 4, 0, 1, .ro, 0x0⟩,
  ⟨0xf1001c, 4, 65536, 4, 0, 1, .ro, 0x0⟩,
  ⟨0xf10100, 32, 65536, 4, 32, 16, .ro, 0x0⟩,
  ⟨0xf10300, 4, 65536, 4, 4, 9, .ro, 0x0⟩,
  ⟨0xf10340, 4, 65536, 4, 4, 9, .ro, 0x0⟩,
  ⟨0xf80000, 4, 0, 1, 0, 1, .rws, 0x1ff⟩,
  ⟨0xf80004, 4, 0, 1, 0, 1, .rw, 0x1ff⟩,
  ⟨0xf80008, 4, 0, 1, 0, 1, .rw, 0x3ff⟩,
  ⟨0xf8000c, 4, 0, 1, 0, 1, .ro, 0x0⟩,
  ⟨0xf80010, 4, 0, 1, 0, 1, .ro, 0x0⟩,
  ⟨0xf80014, 4, 0, 1, 0, 1, .ro, 0x0⟩,
  ⟨0xf80018, 4, 0, 1, 0, 1, .ro, 0x0⟩,
  ⟨0xf8001c, 4, 0, 1, 0, 1, .wo, 0xffffffff⟩,
  ⟨0xf80020, 4, 0, 1, 0, 1, .ro, 0x0⟩,
  ⟨0xf80100, 32, 32, 16, 0, 1, .ro, 0x0⟩,
  ⟨0xf81000, 4, 4, 224, 0, 1, .ro, 0x0⟩,
  ⟨0xf82000, 8, 0, 1, 0, 1, .rw, 0xffffffff⟩,
  ⟨0xf82008, 8, 0, 1, 0, 1, .rw, 0xffffffff⟩,
  ⟨0xf82010, 4, 0, 1, 0, 1, .rw, 0x7f⟩,
  ⟨0xf82014, 4, 0, 1, 0, 1, .wo, 0xffffffff⟩,
  ⟨0xf82018, 4, 0, 1, 0, 1, .ro, 0x0⟩,
  ⟨0xf82020, 4, 0, 1, 0, 1, .ro, 0x0⟩,
  ⟨0xf82024, 4, 0, 1, 0, 1, .ro, 0x0⟩,
  ⟨0xf82028, 4, 0, 1, 0, 1, .ro, 0x0⟩,
  ⟨0xf8202c, 4, 0, 1, 0, 1, .ro, 0x0⟩,
  ⟨0xf82030, 8, 0, 1, 0, 1, .ro, 0x0⟩,
  ⟨0xf82038, 8, 0, 1, 0, 1, .ro, 0x0⟩]

/-- The rows of chapter 13's register tables. -/
def regRows13 : List RegRow := [
  ⟨0x300000, 4, 0, 1, 0, 1, .ro, 0x0⟩,
  ⟨0x300004, 4, 0, 1, 0, 1, .rws, 0x1ffff⟩,
  ⟨0x300008, 4, 0, 1, 0, 1, .rw, 0x1ffff⟩,
  ⟨0x30000c, 4, 0, 1, 0, 1, .ro, 0x0⟩,
  ⟨0x300010, 8, 0, 1, 0, 1, .ro, 0x0⟩,
  ⟨0x300018, 8, 0, 1, 0, 1, .ro, 0x0⟩,
  ⟨0x300020, 4, 0, 1, 0, 1, .ro, 0x0⟩,
  ⟨0x300024, 4, 0, 1, 0, 1, .ro, 0x0⟩,
  ⟨0x300028, 4, 0, 1, 0, 1, .ro, 0x0⟩,
  ⟨0x30002c, 4, 0, 1, 0, 1, .ro, 0x0⟩,
  ⟨0x300030, 4, 0, 1, 0, 1, .ro, 0x0⟩,
  ⟨0x300034, 4, 0, 1, 0, 1, .rw, 0x1⟩,
  ⟨0x300038, 4, 0, 1, 0, 1, .ro, 0x0⟩,
  ⟨0x30003c, 4, 0, 1, 0, 1, .ro, 0x0⟩,
  ⟨0x300040, 4, 0, 1, 0, 1, .ro, 0x0⟩,
  ⟨0x300044, 4, 0, 1, 0, 1, .ro, 0x0⟩,
  ⟨0x300048, 4, 0, 1, 0, 1, .ro, 0x0⟩,
  ⟨0x300050, 8, 0, 1, 0, 1, .ro, 0x0⟩,
  ⟨0x300058, 8, 0, 1, 0, 1, .ro, 0x0⟩,
  ⟨0x300060, 8, 0, 1, 0, 1, .ro, 0x0⟩,
  ⟨0x300068, 4, 0, 1, 0, 1, .ro, 0x0⟩,
  ⟨0x300100, 8, 8, 41, 0, 1, .ro, 0x0⟩,
  ⟨0x300300, 4, 16, 16, 0, 1, .ro, 0x0⟩,
  ⟨0x300304, 4, 16, 16, 0, 1, .ro, 0x0⟩]

/-- The rows of chapter 14's register tables. -/
def regRows14 : List RegRow := [
  ⟨0x0, 4, 0, 1, 0, 1, .ro, 0x0⟩,
  ⟨0x4, 4, 0, 1, 0, 1, .ro, 0x0⟩,
  ⟨0x8, 4, 0, 1, 0, 1, .ro, 0x0⟩,
  ⟨0xc, 4, 0, 1, 0, 1, .ro, 0x0⟩,
  ⟨0x10, 4, 0, 1, 0, 1, .ro, 0x0⟩,
  ⟨0x14, 4, 0, 1, 0, 1, .ro, 0x0⟩,
  ⟨0x18, 4, 0, 1, 0, 1, .ro, 0x0⟩,
  ⟨0x1c, 4, 0, 1, 0, 1, .rws, 0x1ff⟩,
  ⟨0x20, 4, 0, 1, 0, 1, .rw, 0x1ff⟩,
  ⟨0x24, 4, 0, 1, 0, 1, .ro, 0x0⟩,
  ⟨0x28, 4, 0, 1, 0, 1, .ro, 0x0⟩,
  ⟨0x30, 8, 0, 1, 0, 1, .ro, 0x0⟩,
  ⟨0x38, 4, 0, 1, 0, 1, .rw, 0x1⟩,
  ⟨0x3c, 4, 0, 1, 0, 1, .ro, 0x0⟩]

/-- The rows of chapter 16's register tables. -/
def regRows16 : List RegRow := [
  ⟨0x2080000, 4, 0, 1, 0, 1, .ro, 0x0⟩,
  ⟨0x2080004, 4, 0, 1, 0, 1, .rws, 0x1ff⟩,
  ⟨0x2080008, 4, 0, 1, 0, 1, .rw, 0x1ff⟩,
  ⟨0x2080018, 8, 8, 8, 0, 1, .ro, 0x0⟩,
  ⟨0x2080100, 4, 0, 1, 0, 1, .ro, 0x0⟩,
  ⟨0x2090000, 4, 4, 512, 0, 1, .rw, 0xffffffff⟩,
  ⟨0x2091000, 4, 4, 512, 0, 1, .ro, 0x0⟩]

/-- The rows of chapter 17's register tables. -/
def regRows17 : List RegRow := [
  ⟨0x2000000, 4, 0, 1, 0, 1, .ro, 0x0⟩,
  ⟨0x2000004, 4, 0, 1, 0, 1, .rws, 0x1f⟩,
  ⟨0x2000008, 4, 0, 1, 0, 1, .rw, 0x1f⟩,
  ⟨0x2000010, 16, 0, 1, 0, 1, .ro, 0x0⟩,
  ⟨0x2000020, 4, 0, 1, 0, 1, .ro, 0x0⟩,
  ⟨0x2000040, 4, 0, 1, 0, 1, .wo, 0xffffffff⟩,
  ⟨0x2000044, 4, 0, 1, 0, 1, .ro, 0x0⟩,
  ⟨0x2000048, 4, 0, 1, 0, 1, .wo, 0xffffffff⟩,
  ⟨0x200004c, 4, 0, 1, 0, 1, .ro, 0x0⟩,
  ⟨0x2000060, 8, 0, 1, 0, 1, .ro, 0x0⟩,
  ⟨0x2000100, 64, 0, 1, 0, 1, .ro, 0x0⟩,
  ⟨0x2000140, 4, 0, 1, 0, 1, .ro, 0x0⟩,
  ⟨0x2000200, 32, 32, 4, 0, 1, .ro, 0x0⟩,
  ⟨0x2001000, 2048, 0, 1, 0, 1, .ro, 0x0⟩]

/-- The rows of chapter 19's register tables. -/
def regRows19 : List RegRow := [
  ⟨0x400000, 4, 0, 1, 0, 1, .ro, 0x0⟩,
  ⟨0x400004, 4, 0, 1, 0, 1, .rws, 0x1⟩,
  ⟨0x400008, 4, 0, 1, 0, 1, .ro, 0x0⟩,
  ⟨0x40000c, 4, 0, 1, 0, 1, .ro, 0x0⟩,
  ⟨0x400010, 8, 0, 1, 0, 1, .ro, 0x0⟩,
  ⟨0x400018, 8, 0, 1, 0, 1, .ro, 0x0⟩,
  ⟨0x400020, 4, 0, 1, 0, 1, .rws, 0x7⟩,
  ⟨0x400024, 4, 0, 1, 0, 1, .rw, 0x7⟩,
  ⟨0x400028, 8, 0, 1, 0, 1, .ro, 0x0⟩,
  ⟨0x400030, 4, 0, 1, 0, 1, .ro, 0x0⟩,
  ⟨0x400038, 8, 0, 1, 0, 1, .ro, 0x0⟩,
  ⟨0x400100, 4, 4, 19, 0, 1, .ro, 0x0⟩]

/-- Every row of every register table. -/
def regRows : List RegRow :=
  regRows02 ++ regRows03 ++ regRows04 ++ regRows05 ++ regRows06 ++ regRows10 ++ regRows11 ++ regRows12 ++ regRows13 ++ regRows14 ++ regRows16 ++ regRows17 ++ regRows19

/-- The row that holds address `a`, if any (R334: every other offset is unimplemented). -/
def regRow (a : Nat) : Option RegRow := regRows.find? (fun r => r.holds a)

end Sys2Proof.Machine
end

