-- ==== Sys2Proof/Machine/State.lean ====
section
/-!
DEFINITION. The state of the machine as plain data. The registers of the manual's register tables are the one home of the state they show; what no register holds is a field here.
-/
namespace Sys2Proof.Machine

/-- Why the machine would stop with a fault: the block raises none (every fault of the manual is an effect on State). -/
inductive Fault where
  | none
  deriving DecidableEq, Repr

/-- Why a command is refused. -/
inductive Refusal where
  /-- No meaning yet: raised by an arm of exec only. Safe: nothing is claimed of such a command. -/
  | notModelled (mnemonic : String)
  deriving DecidableEq, Repr

/-- What has left the device on a pin, a bus or the link. -/
inductive Out where
  /-- An MSI-X message of a function (R339). -/
  | msix (fn vector : Nat)
  /-- A posted write to host memory of a function: address, bytes, relaxed ordering; never No Snoop (R341). An MSI-X message never carries relaxed ordering. -/
  | hostWrite (fn addr bytes : Nat) (relaxed : Bool)
  /-- A read request to host memory of a function (R341). -/
  | hostRead (fn addr bytes : Nat) (relaxed : Bool)
  /-- A PAUSE frame with its quanta (R61). -/
  | pause (port quanta : Nat)
  /-- The answer of the SMBus target: bytes and value (R351). -/
  | smbus (bytes value : Nat)
  /-- The SMBus target does not acknowledge (R351, R352). -/
  | smbusNack
  /-- A completion with Unsupported Request status to a function (R340). -/
  | urCompletion (fn : Nat)
  /-- An AVSBus setpoint write: rail and mV (R27, R29). -/
  | avs (rail mv : Nat)
  /-- An AVSBus VOUT transition rate write to a rail (R29; log entry 93). -/
  | avsRate (rail : Nat)
  /-- The AVSBus reset-to-default-voltage command to a rail (R29, R30; log entry 93). -/
  | avsDefault (rail : Nat)
  deriving DecidableEq, Repr

/-- An error event on its way to the ERR block (R436 to R438): register index and copy, bit, capture fields and stamp. -/
structure ErrEvent where
  idx : Nat
  unit : Nat
  bit : Nat
  part : Option Nat := none
  aux : Nat := 0
  detail : Nat := 0
  addr : Nat := 0xFFFFFFFFFFFFFFFF
  tb : Nat := 0
  deriving DecidableEq, Repr

/-- A detected fault on its way to the safety island (R318): cause of Table 13.6, subsystem, unit or pair, its partition and the TB of detection. -/
structure FaultReport where
  cause : Nat
  subsys : Nat
  unit : Nat
  part : Option Nat := none
  stream : Option Nat := none
  tb : Nat := 0
  deriving DecidableEq, Repr

/-- A record of Table 10.6 as a producer hands it over: the header's fields and the body. `stream` is none for a record with no_stream set, which goes to the notice ring of `part` (R299). -/
structure Rec where
  typ : Nat
  kind : Nat := 0
  stream : Option Nat := none
  part : Nat := 0
  classS : Bool := false
  concealed : Bool := false
  concealedRef : Bool := false
  roiStale : Bool := false
  frameDone : Bool := false
  poisoned : Bool := false
  unframed : Bool := false
  counter : Nat := 0
  ts : Nat := 0
  /-- The ring that a snippet session names for its chunks (Table 4.9). -/
  ringOf : Option Nat := none
  body : Blob := { len := 0, val := 0 }
  /-- TB at which the record entered staging (COL_PORT_WAIT_MAX). -/
  staged : Nat := 0
  /-- TB since which the record, at the head of service, has waited for room in its ring; its stall bound has passed (R245). -/
  waits : Option Nat := none
  overdue : Bool := false
  deriving DecidableEq, Repr

/-- Input and output pins that are state (R318, R42, R371, R374). -/
structure Pins where
  /-- VDD_AON is up. -/
  aonUp : Bool := true
  faultN : Bool := true
  thermtripN : Bool := false
  porLow : Bool := false
  perstLow : Bool := false
  bootSrc : BitVec 2 := 0
  i2cAddr : BitVec 2 := 0
  deriving DecidableEq, Repr

/-- The time base: three copies of 64 bits of ns with 32 fractional bits, the hold of R43 and the part of a ns of slew not yet absorbed, in 2^-32 ns (R43, R45). -/
structure TimeBase where
  c0 : BitVec 96 := 0
  c1 : BitVec 96 := 0
  c2 : BitVec 96 := 0
  held : Bool := false
  slewFrac : Nat := 0
  deriving DecidableEq, Repr

/-- The error record's waiting events (R438). -/
structure ErrQueue where
  pend : List ErrEvent := []
  deriving DecidableEq, Repr

/-- A frame open at the collector (R244). -/
structure OpenFrame where
  counter : Nat
  ts : Nat
  recs : Nat := 0
  /-- Running CRC-32C register over the delivered units (R83, R244). -/
  crc : Nat := 0xFFFFFFFF
  marks : Nat := 0
  drops : Nat := 0
  /-- Released by the safety island (R314). -/
  released : Bool := false
  /-- Withdrawn: it ends by FRAME_WITHDRAWN and is never released (R312, R319). -/
  withdrawn : Bool := false
  /-- The cause of a FRAME_CLOSE that no producer completes, and the port whose next turn writes it. -/
  closing : Option (Nat × Nat) := none
  /-- TB since which that FRAME_CLOSE has waited for room in its ring; its stall bound has passed (R245). -/
  waits : Option Nat := none
  overdue : Bool := false
  deriving DecidableEq, Repr

/-- One of a stream's last 16 closes (COL_STRM_RESULT). -/
structure ClosedFrame where
  counter : Nat
  cause : Nat
  withdrawn : Bool
  deriving DecidableEq, Repr

/-- What a result ring remembers beside its descriptor (Table 10.5, R245). -/
structure RingState where
  seq : Nat := 0
  dropped : Nat := 0
  /-- TB since which some record or close waits for room (COL_PART_STALL_NS). -/
  stall : Option Nat := none
  /-- The stall bound has passed and the ring is still full: records are discarded (R245). -/
  dropping : Bool := false
  deriving DecidableEq, Repr

/-- The result collector (R241 to R247): per port the records ready at the producer, the staged ones, and the class S records served in a row; the round robin's next port; per stream the open frames and the last closes; per queue the ring state. -/
structure Collector where
  queue : List (List Rec) := List.replicate 18 []
  stage : List (List Rec) := List.replicate 18 []
  sRow : List Nat := List.replicate 18 0
  rr : Nat := 0
  frames : Tab (List OpenFrame) := []
  closed : Tab (List ClosedFrame) := []
  rings : Tab RingState := []
  deriving DecidableEq, Repr

/-- The safety island beside its registers (13). -/
structure Safety where
  reports : List FaultReport := []
  /-- Partitions that hold FAULT_N and those of them that have met R318's condition since the latest fault. -/
  releaseSet : BitVec 16 := 0
  releaseMet : BitVec 16 := 0
  /-- FAULT_N held by thermal shutdown, safe hold or an injection failure (R318). -/
  hold : Bool := false
  /-- TBs of the safe-state entries that count toward R321. -/
  entries : List Nat := []
  /-- Self-test chunks run of the present pass, by resource (R325). -/
  chunks : Tab Nat := []
  /-- The open window of a core pair after a disagreement (R312): TB of it, and the streams concerned with their admitted frames then. -/
  win : Tab (Nat × List (Nat × Nat)) := []
  /-- Class S partitions that lost their models in a restart and wait for host software to load and bind them (R391). -/
  lostModels : BitVec 16 := 0
  deriving DecidableEq, Repr

/-- A buffer descriptor (Table 11.4). -/
structure Buf where
  allocated : Bool := false
  freePending : Bool := false
  holders : List Nat := []
  lastOwner : Nat := 0
  part : Nat := 0
  allocTb : Nat := 0
  deriving DecidableEq, Repr

/-- A class F reservation that waits (R261). -/
structure Waiting where
  tag : Nat
  holder : Nat
  pairs : List (Nat × Nat)
  tb : Nat
  aged : Bool := false
  /-- The stream of the pushed access unit that it admits (R445). -/
  push : Option Nat := none
  deriving DecidableEq, Repr

/-- The buffer pool manager beside its registers: buffer descriptors and waiting reservations in arrival order. -/
structure Pools where
  bufs : Tab Buf := []
  waiting : List Waiting := []
  /-- Bytes 28 to 39 of a pool descriptor written and not yet in force (R259), by 4 × pool + word: 1 back-pressure, 2 critical, 3 hysteresis. -/
  staged : Tab Nat := []
  deriving DecidableEq, Repr

/-- The halyard network beside its registers: watches whose COPY is in flight (R253), and sync objects that step 6 of R343 resets once no wait names them. -/
structure Halyard where
  copies : List Nat := []
  lateReset : List Nat := []
  deriving DecidableEq, Repr

/-- What the structure image in force grants and sets (15): PARTITIONS items by partition (Table 15.6), DRAM windows by owner (base and size in bytes, Table 15.8; owner 16 is the safety island), scratchpad bank masks by owner × 8 + core, stream memory bank masks by owner, CORES items by core (Table 15.7), stream table entries by stream (Table 3.1), and the lane map of each CSI-2 port (Table 15.10). -/
structure Grants where
  parts : Tab Desc64 := []
  windows : Tab (List (Nat × Nat)) := []
  scratch : Tab Nat := []
  sbanks : Tab Nat := []
  cores : Tab Desc32 := []
  streams : Tab Desc64 := []
  lanes : Tab Nat := []
  deriving DecidableEq, Repr

/-- One adjustable rail of the fusee loop (R27, R31, R37): when its reading has lain above 1.03 of the target since, its last upward step, a frame's retry due, good status reads in a row on a frozen link, a regulator fault reported. -/
structure Rail where
  aboveSince : Option Nat := none
  lastUp : Option Nat := none
  retryDue : Option Nat := none
  goodReads : Nat := 0
  regFault : Bool := false
  deriving DecidableEq, Repr

/-- The last guarantee notice of a partition (R305): granted amount, kind and TB. -/
structure Notice where
  granted : Nat
  kind : Nat
  tb : Nat
  deriving DecidableEq, Repr

/-- Power and timing beside its registers (02): rails 0 VDD_ARRAY and 1 VDD_LOGIC, the planner's figure and the POWER section's, reefing, domains. -/
structure Power where
  arrayRail : Rail := {}
  logicRail : Rail := {}
  /-- The planner's beat rate in Mbeat/s (R27). -/
  beatNeeded : Nat := 620
  /-- logic_needed in 0.1 % (R27). -/
  logicNeeded : Nat := 1000
  /-- The fixed-rail allowance in mW (R36). -/
  fixedMw : Nat := 6000
  /-- The last ten power samples: total and the part estimated under R37, in mW. -/
  samples : List (Nat × Nat) := []
  marginRun : Nat := 0
  ceiling : Option Nat := none
  /-- Cores gated by reefing level 2, last first; those that wait for their tile boundary. -/
  gated : List Nat := []
  gatePend : List Nat := []
  /-- Steps of one twentieth withdrawn at level 3 (Table 2.7). -/
  withdrawn : Nat := 0
  /-- Last notice of each partition and resource: partition + 16 × resource (R305). -/
  notices : Tab (Option Notice) := []
  /-- The greatest threshold the hottest sensor is above: 0 none, 1 warn, 2 reef, 3 critical. -/
  thermLevel : Nat := 0
  thermCrit : Bool := false
  shutdown : Bool := false
  /-- Array switch-ons that wait, the TBs of recent starts, and the target of each changing domain with the state it left (R33). -/
  pdWait : List Nat := []
  pdStarts : List Nat := []
  pdTarget : Tab (Nat × Nat) := []
  /-- DMA requests held at banks in retention, oldest first (R35). -/
  heldDma : List MemReq := []
  deriving DecidableEq, Repr

/-- A weight-stage buffer (Table 6.10): 0 free, 1 loading, 2 loaded, 3 in use; the source, length and owner of its weights, the flags of its groups (R186): bit 0 poison, 1 concealed, by parameter index. -/
structure WBuf where
  st : Nat := 0
  src : Nat := 0
  addr : Nat := 0
  lines : Nat := 0
  part : Nat := 0
  marks : Tab Nat := []
  deriving DecidableEq, Repr

/-- A tile on its way through a core (Table 6.4). -/
structure Tile where
  desc : Desc128
  facts : LayerFacts := {}
  /-- The planner pair that wrote the descriptor: 0 PA, 1 PB, 2 SP, 3 SM. -/
  pair : Nat := 0
  /-- Its number in the order of issue on the core (R148). -/
  seq : Nat := 0
  /-- Thresholds of the two waits as 64-bit values (R210). -/
  thrA : Nat := 0
  thrB : Nat := 0
  /-- TB at which phase 2, and the watchdog's phase, began; TB from which the beats could have started. -/
  tb2 : Nat := 0
  tbRun : Nat := 0
  could : Option Nat := none
  /-- Phase 2: waits met and claims taken; weights in place. -/
  met : Bool := false
  ready : Bool := false
  /-- TB from which the wait audit has found its waits met (R311). -/
  audit : Option Nat := none
  wbuf : Option Nat := none
  /-- Phase 3 over; the tile waits for the vector engine. -/
  drained : Bool := false
  failed : Bool := false
  /-- CRC-32C register over the output blocks (R150). -/
  sig : Nat := 0xFFFFFFFF
  rerun : Bool := false
  /-- Writes outside the core's own scratchpad that wait for the pair's verdict (R150): address, bytes, value. -/
  hold : List (Nat × Nat × Nat) := []
  deriving DecidableEq, Repr

/-- A halo write on a ring link (R151): direction, offset in the receiving bank, the block, and whether it is the tile's last on the link. -/
structure HaloBlk where
  fwd : Bool
  off : Nat
  blk : Nat
  part : Nat
  sync : Nat
  ident : Nat
  last : Bool
  /-- Its tile has already been counted as failed (R149, R151). -/
  counted : Bool := false
  deriving DecidableEq, Repr

/-- One core beside its registers. -/
structure Core where
  fifo : List Tile := []
  /-- A tile that has passed phase 1 while another is in phase 2 (R147). -/
  wait1 : Option Tile := none
  prep : Option Tile := none
  beats : Option Tile := none
  vec : Option Tile := none
  closing : List Tile := []
  wbuf0 : WBuf := {}
  wbuf1 : WBuf := {}
  /-- The buffer loaded last. -/
  lastBuf : Option Nat := none
  /-- Flags of the accumulator entries, by 65,536 × slice + entry: bit 0 poison, 1 concealed (R140). -/
  flags : Tab Nat := []
  /-- Sum of est of the present chain, and whether the next descriptor follows without a grant (R194, R211). -/
  chainEst : Nat := 0
  chainOpen : Option Nat := none
  /-- The partition that a slot's idle time is lent to or granted, the last of equal rank served, the slot, and the partitions for which the planner holds a ready tile (R222). -/
  holder : Option Nat := none
  lendRr : Nat := 0
  slotNow : Nat := 0
  ready : Nat := 0
  halo : List HaloBlk := []
  /-- Accumulator halves that a spectral group holds between its tiles (R194). -/
  groupClaim : Nat := 0
  /-- The number of the next tile issued; whether the tile that entered phase 3, or phase 4 as a vector-only one, last has chain set (R148, R194). -/
  nextSeq : Nat := 0
  chainRun : Bool := false
  /-- Tile time that the planner has written for a class S partition: the escapement cycle, and its sum of est (R303). -/
  spent : Tab (Nat × Nat) := []
  deriving DecidableEq, Repr

/-- A unit of the step builder: one row band, or one whole sample, of a sequence at a stage (R226). -/
structure PUnit where
  part : Nat
  seq : Nat
  stage : Nat
  stream : Nat
  view : Nat
  sample : Nat
  counter : Nat
  ts : Nat
  band : Nat := 0
  bands : Nat := 1
  hole : Bool := false
  concealed : Bool := false
  /-- The band entry (Table 5.4). -/
  entry : Desc64 := 0
  deriving DecidableEq, Repr

/-- A job: one stage of one model over a batch (R206), or a JOB entry of a job queue at its present stage (R348). -/
structure Job where
  num : Nat
  part : Nat
  model : Nat
  stage : Nat
  units : List PUnit := []
  /-- The JOB entry, for a job of host software, and its last stage. -/
  entry : Option Desc64 := none
  last : Nat := 0
  status : Nat := 0
  planned : Bool := false
  tilesLeft : Nat := 0
  /-- Tiles rejected with a re-plan code, which a further plan replaces (R213). -/
  replan : Nat := 0
  /-- Completion signals not yet performed: object and amount. -/
  sigs : List (Nat × Nat) := []
  /-- The reject, operator index and tile of a job that failed (Table 9.9). -/
  reject : Nat := 0
  tile : Nat := 0
  /-- Candidates written so far, by batch sample (R200), and the samples whose candidate entry has gone (Table 10.1). -/
  cands : Tab Nat := []
  sent : List Nat := []
  /-- Credits of candidate queues reserved with the job, one by queue number for each unit that has still to send its entry (R18, R255). -/
  credits : List Nat := []
  deriving DecidableEq, Repr

/-- What a sequence has made of a frame: units per sample, units through the last stage, candidate entries sent, whether its last record has gone or its mark, whether it is done (log entry 87). -/
structure SeqFrame where
  seq : Nat
  counter : Nat
  bands : Nat := 1
  units : Nat := 0
  cands : Nat := 0
  marked : Bool := false
  finished : Bool := false
  /-- Band entries received (Table 9.8). -/
  seen : Nat := 0
  /-- The frame is suppressed under R91 (Table 10.1). -/
  suppressed : Bool := false
  /-- Samples whose hole, and whose concealment, has been reported (R227). -/
  toldHole : List Nat := []
  toldConc : List Nat := []
  deriving DecidableEq, Repr

/-- A reject on its way to the planner (R211). -/
structure Reject where
  pair : Nat
  core : Nat
  code : Nat
  tile : Tile
  deriving DecidableEq, Repr

/-- A loaded model (R369, R402): owner, handle, the package's header and operator list as read, its pipeline, its place in the model window, measurement. -/
structure Model where
  part : Nat
  handle : Nat
  pkg : Blob
  stages : Nat := 1
  base : Nat := 0
  bytes : Nat := 0
  digest : Nat := 0
  /-- ROI_ALIGN boxes beyond 256 in a sample that an operator has ignored, by operator (R199). -/
  ignored : Tab Nat := []
  deriving DecidableEq, Repr

/-- A long or device-wide mailbox command that runs, and the result that its end publishes (R345, R346). -/
structure MboxRun where
  opcode : Nat := 0
  code : Nat := 0
  result : Nat := 0
  deviceWide : Bool := false
  /-- The first two argument bytes: the handle that an UNLOAD_MODEL waits to unload; for CAL_COMMIT the row being burnt. -/
  arg : Nat := 0
  /-- The model that a LOAD_MODEL has made; it counts as loaded at the command's end (R402, R405). -/
  model : Option Model := none
  /-- MGMT_MBX_STATUS of every function before a device-wide command took the mailboxes. -/
  saved : List Nat := []
  deriving DecidableEq, Repr

/-- The host endpoint beside its registers: configuration-space bits of the functions (R331, R332, R340, R353), commands running in mailboxes, the SMBus arm, VF resets held back by a device-wide command (R346). -/
structure HostEp where
  vfEnable : Bool := false
  numVfs : Nat := 0
  bme : BitVec 16 := 0
  /-- Enable Relaxed Ordering, by function (R341). -/
  relaxed : BitVec 16 := 0xFFFF
  d3hot : BitVec 16 := 0
  aerUr : BitVec 16 := 0
  aerEcrc : BitVec 16 := 0
  mbox : Tab (Option MboxRun) := []
  smbusArm : Option Nat := none
  lateFlr : List Nat := []
  deriving DecidableEq, Repr

/-- Planning and scheduling beside the registers (09). -/
structure Planner where
  /-- Owner of slot i of core c at 20 c + i; 0xFF unowned (R221). -/
  slots : Tab Nat := []
  seqs : Tab Desc32 := []
  unbind : List Nat := []
  units : List PUnit := []
  jobs : List Job := []
  frames : List SeqFrame := []
  nextJob : Nat := 0
  /-- The last step start taken by each partition, as its number and 1; 0 none (R226). -/
  steps : Tab Nat := []
  rejects : List Reject := []
  returned : List Tile := []
  models : List Model := []
  /-- Flags of FP32 values that stand in memory between two tiles, partial sums and column-spectrum entries, by device address (R176, R195, R215): bit 0 poison, 1 concealed. -/
  spec : Tab Nat := []
  deriving DecidableEq, Repr

/-- An open CSI-2 frame (R54 to R59). -/
structure CsiFrame where
  counter : Nat
  ts : Nat
  /-- Lines arrived (the slot of the next), and lines already added to sync_stored. -/
  line : Nat := 0
  stored : Nat := 0
  /-- Concealed lines, ascending. -/
  bad : List Nat := []
  /-- Flags of LINES_CONCEALED: bit 0 FS_MISSING, 1 FE_MISSING, 2 GEOMETRY, 3 CORRUPT, 4 RING_OVERRUN. -/
  flags : Nat := 0
  /-- Embedded bytes taken, and those that wait to fill a record (R58). -/
  embBytes : Nat := 0
  embRest : Blob := { len := 0, val := 0 }
  /-- Admitted; a frame dropped under R72 is not. -/
  admitted : Bool := true
  deriving DecidableEq, Repr

/-- A packet that waits in the reorder store (R66). -/
structure Packet where
  seq : Nat
  tb : Nat
  /-- The port that received it, in whose store it waits. -/
  port : Nat := 0
  /-- Numbers declared lost just before it, of a packet held for R73. -/
  lost : Nat := 0
  frame : EthFrame
  deriving DecidableEq, Repr

/-- An access unit being built from packets (R67, R68). -/
structure AuBuild where
  stamp : Nat
  tb : Nat
  handle : Nat := 0
  len : Nat := 0
  gaps : List (Nat × Nat) := []
  /-- Offset at which the NAL unit in fragments began. -/
  frag : Option Nat := none
  /-- The fourth gap, or a truncation, reaches to the end of the unit: later data is not written. -/
  toEnd : Bool := false
  truncated : Bool := false
  /-- Dropped whole: its packets are discarded. -/
  dropped : Bool := false
  /-- Held for the decision of R73 with its packets, and whether the boundary found back-pressure. -/
  held : Bool := false
  heldPkts : List Packet := []
  bp : Bool := false
  /-- Dropped at its boundary for want of a buffer, while the stream was not dropping: its header may still show that no picture refers to it (R73, R445). -/
  noBuf : Bool := false
  deriving DecidableEq, Repr

/-- A pushed access unit on its way in (R70): the entry, its buffer, whether it is held for R73, and the counter accepted before it (R71). -/
structure PushRead where
  entry : Desc64
  handle : Nat := 0
  bp : Bool := false
  prev : Option Nat := none
  deriving DecidableEq, Repr

/-- What ingress keeps of a stream beside its registers (03). -/
structure InStream where
  /-- The stream's first admitted frame has been taken (R51). -/
  seen : Bool := false
  /-- The next frame takes the last counter plus 1 with no FRAME_SKIP (R51, R59). -/
  resume : Bool := false
  prevFn : Nat := 0
  prevStamp : Nat := 0
  csi : Option CsiFrame := none
  /-- Concealed lines and corruption of the last closed CSI-2 frame, and its counter (R56). -/
  lastBad : List Nat := []
  lastCorrupt : Bool := false
  lastClosed : Nat := 0
  ring : Option Nat := none
  /-- Value of sync_released at the open frame's start (R55). -/
  relBase : Nat := 0
  dropsSince : Nat := 0
  /-- Dropping under R73. -/
  dropping : Bool := false
  expect : Option Nat := none
  waiting : List Packet := []
  lostRun : Nat := 0
  au : Option AuBuild := none
  reads : List PushRead := []
  pushHeld : Option PushRead := none
  pushWait : Option PushRead := none
  pushed : Bool := false
  lastPush : Nat := 0
  deriving DecidableEq, Repr

/-- Ingress beside its registers: streams, the classification entries in force (R64), PAUSE in force per port (R61), and access units of host-pushed streams on their way to the decoder (R70). -/
structure Ingress where
  strm : Tab InStream := []
  classes : Tab Desc64 := []
  paused : List Nat := []
  toDecoder : Tab (List Desc64) := []
  deriving DecidableEq, Repr

/-- A reference picture of a stream's picture buffer. -/
structure RefPic where
  poc : Nat
  handle : Nat
  chk : Option Nat := none
  /-- Concealed, abandoned, given a substitute, or predicted from such a picture (R90). -/
  tainted : Bool := false
  deriving DecidableEq, Repr

/-- A picture being decoded (R81 to R97). -/
structure Picture where
  info : PicInfo
  handle : Nat
  chk : Option Nat := none
  counter : Nat
  ts : Nat
  /-- TB at reservation. -/
  start : Nat
  rows : Nat
  /-- Rows reconstructed by the primary, by the checker, and signalled. -/
  row : Nat := 0
  chkRow : Nat := 0
  signalled : Nat := 0
  /-- TB at which the primary finished each row. -/
  rowTb : List Nat := []
  flags : Nat := 0
  /-- Rows concealed, each with its cause of Table 4.7; 0 for a row that an abandonment conceals, 6 for one at the class S row limit, 10 after a mismatch. -/
  bad : List (Nat × Nat) := []
  /-- Cause and first row of an abandonment. -/
  abandon : Option (Nat × Nat) := none
  /-- The budget was exceeded while a row was in progress, which still completes (R92). -/
  spent : Bool := false
  tainted : Bool := false
  eos : Bool := false
  deriving DecidableEq, Repr

/-- A unit that waits for its picture buffer (R93). -/
structure WaitUnit where
  entry : Desc64
  info : PicInfo
  tb : Nat
  /-- Its buffers once granted, or the end of its budget, while the notice path is full (R84). -/
  granted : List Nat := []
  expired : Bool := false
  deriving DecidableEq, Repr

/-- A source picture of the snippet encoder (R99): its buffer and layout, the value of the sync object of its rows before it, its flags (Table 4.4). -/
structure SrcPic where
  counter : Nat
  ts : Nat
  flags : Nat
  handle : Nat
  base : Nat
  info : PicInfo
  deriving DecidableEq, Repr

/-- What a decoder keeps of a stream beside its registers. -/
structure DecStream where
  /-- The engine's, and the checker's, next row met an uncorrectable read (Table 12.3). -/
  ue : Bool := false
  ueChk : Bool := false
  /-- Deficits in ns at the primary and at the checker (R87). -/
  credit : Int := 0
  credit2 : Int := 0
  refs : List RefPic := []
  pic : Option Picture := none
  wait : Option WaitUnit := none
  maxPoc : Option Int := none
  raslSkip : Bool := false
  resync : Nat := 0
  /-- A CONCEALED_REF run has been reported. -/
  inhRun : Bool := false
  /-- Buffers that are no reference any more and wait for the front end's drop (R84). -/
  done : List Nat := []
  /-- The last picture begun, as a source of the encoder (R99, R101). -/
  last : Option SrcPic := none
  deriving DecidableEq, Repr

/-- A picture notice on its way to a front end (R84). -/
structure FeNotice where
  engine : Nat
  stream : Nat
  handle : Option Nat
  base : Nat := 0
  rows : Nat := 0
  counter : Nat
  ts : Nat
  flags : Nat := 0
  skipped : Bool := false
  /-- The stream has just left RESYNC (R125). -/
  resumed : Bool := false
  /-- The decoded picture's layout; none for CSI-2. -/
  info : Option PicInfo := none
  deriving DecidableEq, Repr

/-- The decode engines beside their registers: streams, undelivered notices, the stream last served by each engine, and pictures decoded twice since the last mismatch of each pair (R97). -/
structure Decoders where
  strm : Tab DecStream := []
  notices : List FeNotice := []
  /-- The stream that each engine served last, and the one whose block row its reconstruction island has in hand (R87). -/
  served : Tab (Option Nat) := []
  serving : Tab (Option Nat) := []
  pairWin : Tab (Option Nat) := []
  deriving DecidableEq, Repr

/-- A region of an ROI list (Table 5.6). -/
structure Region where
  x : Nat
  y : Nat
  w : Nat
  h : Nat
  view : Nat
  flags : Nat := 0
  track : Nat := 0
  deriving DecidableEq, Repr

/-- An ROI list (Table 5.5). -/
structure RoiList where
  counter : Nat
  refresh : Bool := false
  regions : List Region := []
  deriving DecidableEq, Repr

/-- A band that a front end has to produce (R115, R117). -/
structure Band where
  view : Nat
  sample : Nat
  band : Nat
  /-- Source window of its sample, after R124. -/
  win : Region
  empty : Bool := false
  adjusted : Bool := false
  /-- Pool buffer; running band count of the view. -/
  handle : Option Nat := none
  count : Nat := 0
  /-- TB at which the source wait was met. -/
  met : Option Nat := none
  /-- The frame has been withdrawn under R121: the band is signalled poisoned, without data. -/
  poison : Bool := false
  deriving DecidableEq, Repr

/-- A frame latched at a front end (R123). -/
structure FeFrame where
  counter : Nat
  ts : Nat
  /-- Base of the sync object of the source (R115). -/
  base : Nat
  flags : Nat := 0
  /-- The picture buffer and its layout; none for CSI-2. -/
  pic : Option Nat := none
  info : Option PicInfo := none
  roiStale : Bool := false
  bands : List Band := []
  released : Nat := 0
  /-- Closed at ingress, with its concealed lines and whether it was corrupt. -/
  closed : Bool := false
  bad : List Nat := []
  corrupt : Bool := false
  /-- The encoder view's buffer, the value of enc_sync before it, the TB of its reservation, its next block row and its rows from concealed lines (R126). -/
  enc : Option Nat := none
  encBase : Nat := 0
  encStart : Nat := 0
  encRow : Nat := 0
  encBad : Nat := 0
  deriving DecidableEq, Repr

/-- The band that a front end is computing. -/
structure BandRun where
  stream : Nat
  counter : Nat
  band : Band
  start : Nat
  /-- The front end checks its pair's band (R121). -/
  check : Bool := false
  /-- Written, and waiting for the checker; the CRC-32C of its blocks (R121). -/
  done : Bool := false
  poisoned : Bool := false
  crc : Nat := 0
  deriving DecidableEq, Repr

/-- What a front end keeps of a stream beside its registers. -/
structure FeStream where
  frames : List FeFrame := []
  /-- Entries of an ROI list fetched from a submission queue and not yet latched. -/
  fetched : List Desc64 := []
  lists : List RoiList := []
  lastUsed : Option RoiList := none
  started : Bool := false
  /-- Frames since the last full view (R125). -/
  sinceFull : Option Nat := none
  /-- Running band count and consumed_sync at the first frame, by view (R116). -/
  counts : List Nat := [0, 0, 0, 0]
  bases : List Nat := [0, 0, 0, 0]
  /-- Encoder views written. -/
  encDone : List SrcPic := []
  deriving DecidableEq, Repr

/-- The pixel front ends beside their registers: streams, the band that each computes, frames checked since the last mismatch of each pair (R121). -/
structure FrontEnds where
  strm : Tab FeStream := []
  run : Tab (Option BandRun) := []
  pairWin : Tab (Option Nat) := []
  deriving DecidableEq, Repr

/-- A token bucket (R297): tokens in thousandths of a byte, the TB to which they have accrued, and the spare traffic admitted of late, TB and bytes. -/
structure Bucket where
  tokens : Nat := 0
  upTo : Nat := 0
  spare : List (Nat × Nat) := []
  deriving DecidableEq, Repr

/-- The DRAM controller and scrubber beside their registers (R278, R285, R287, R290): column and row bits of the organisation, corrections per channel in the present second, TBs of the last command failures, TB of the last request and of the last calibration by 2 × channel + rank, retained ranks, a running scrub pass. -/
structure Dram where
  colBits : Nat := 10
  rowBits : Nat := 17
  ceSec : Tab (Nat × Nat) := []
  fails : Tab (List Nat) := []
  lastReq : Tab Nat := []
  lastZq : Tab Nat := []
  retain : Nat := 0
  scrubAt : Option Nat := none
  /-- Token buckets (R297), by 9 × partition: that of DRAM, and from 1 on that at the router of each core region. -/
  buckets : Tab Bucket := []
  /-- Requests that wait for admission, oldest first, and the partition from which the round robin of spare traffic goes on (R297). -/
  waiting : List MemReq := []
  spareRr : Nat := 0
  deriving DecidableEq, Repr

/-- A track (R231, R233): identifier, class, slot, state of Table 10.3 (0 tentative, 1 confirmed, 2 lost), consecutive hits, misses, age, confidence, state vector and covariance in FP32, TB of the last prediction, appearance vector (empty for none). -/
structure Track where
  id : Nat
  cls : Nat
  slot : Nat
  state : Nat := 0
  hits : Nat := 1
  misses : Nat := 0
  age : Nat := 0
  conf : Nat := 0
  x : List Nat := []
  p : List (List Nat) := []
  tb : Nat := 0
  emb : List Nat := []
  deriving DecidableEq, Repr

/-- A class S frame's update that waits for the frame's release (R313). -/
structure TrkPend where
  counter : Nat
  ts : Nat
  tracks : List Track
  nextId : Nat
  deriving DecidableEq, Repr

/-- What a tracker keeps of a stream beside its registers: its tracks, the values of wait_a and wait_b up to the last frame, an update held back, and the counter of a frame whose check values are not yet compared (R231, R232). -/
structure TrkStream where
  tracks : List Track := []
  baseA : Nat := 0
  baseB : Nat := 0
  pend : Option TrkPend := none
  cmp : Option Nat := none
  /-- Candidate entries taken off the queue that belong to later frames (R232). -/
  held : List Desc64 := []
  deriving DecidableEq, Repr

/-- The trackers beside their registers; frames processed in pair mode since the last mismatch (R231). -/
structure Trackers where
  strm : Tab TrkStream := []
  pairWin : Option Nat := none
  deriving DecidableEq, Repr

/-- A coded row in a session buffer (R102). -/
structure CodedRow where
  data : Blob
  /-- Picture number of the session, TB of its source, IDR, first and last row of its picture. -/
  pic : Nat
  ts : Nat
  idr : Bool
  row : Nat
  counter : Nat
  flags : Nat
  /-- Coded as skipped (R103). -/
  skipped : Bool := false
  deriving DecidableEq, Repr

/-- A picture being encoded (R101, R103). -/
structure EncPic where
  src : SrcPic
  idr : Bool
  thumb : Bool := false
  row : Nat := 0
  /-- Bits used, and the bits of each row so far. -/
  used : Nat := 0
  rowBits : List Nat := []
  started : Bool := false
  skipMode : Bool := false
  deriving DecidableEq, Repr

/-- An encoder session beside its registers (R99 to R104). -/
structure EncSess where
  handle : Option Nat := none
  pic : Option EncPic := none
  store : List CodedRow := []
  qp : Nat := 0
  carry : Int := 0
  picNum : Nat := 0
  sinceIdr : Nat := 0
  srcCount : Nat := 0
  /-- Row bits of the last IDR and the last P picture (share). -/
  rowsI : List Nat := []
  rowsP : List Nat := []
  /-- The samples that the row in progress is coded from, after crop, scaling and rotation: luma lines, then Cb and Cr interleaved (R99). -/
  lines : Blob := { len := 0, val := 0 }
  /-- Where the next coded byte goes in the session buffer (R102; log entry 96). -/
  place : Nat := 0
  /-- The delivery waits for the IDR picture that its snippet begins with (R100). -/
  needIdr : Bool := false
  /-- The delivery window's first TB and end TB, while delivering. -/
  fromTb : Nat := 0
  endTb : Option Nat := none
  snippet : Nat := 0
  offset : Nat := 0
  bytes : Nat := 0
  thumbs : Nat := 0
  deriving DecidableEq, Repr

/-- The snippet encoder beside its registers; the session whose row was coded last (R101). -/
structure Encoder where
  sess : Tab EncSess := []
  rr : Nat := 0
  deriving DecidableEq, Repr

/-- A spare row of calibration fuses (R383, R386). -/
structure FuseRow where
  valid : Bool := false
  spent : Bool := false
  words : Tab Word := []
  deriving DecidableEq, Repr

/-- Security and start-up beside their registers (15, 16, 17): fuses burnt in the field; a burn in progress (operation and slot, or a calibration row); the JTAG challenge and its TB; the half of the image region in force, its length and digests; the DRAM body trained on; an image accepted by RESTRUCTURE; whether READY has been reached since the last cold start, and FAULT_N held for HOST_RESET. -/
structure Security where
  revoked : BitVec 4 := 0
  burnt : Nat := 0
  jtagBurnt : Bool := false
  row0 : FuseRow := {}
  row1 : FuseRow := {}
  factoryGone : Bool := false
  burn : Option (Nat × Nat) := none
  challenge : Option (Nat × Nat) := none
  /-- The challenge counter in always-on storage (R407). -/
  challenges : Nat := 0
  region : Nat := 0
  half : Nat := 0
  imgLen : Nat := 0
  halfDigest : Nat := 0
  imgDigest : Nat := 0
  fwDigest : Nat := 0
  trained : Option Blob := none
  staged : Option Blob := none
  started : Bool := false
  /-- A restart is due: 1 safe state, 2 hot reset, 3 PF function-level reset; the TB at which it began; restart_limit reached. -/
  restart : Nat := 0
  restartTb : Nat := 0
  limitHit : Bool := false
  /-- A PERST_N pulse by SMBus, and a reset that waits for a cold start. -/
  coldDue : Bool := true
  /-- The calibration shadows are to be filled from the fuses: at the first cold start after a power-on (R383). -/
  calDue : Bool := true
  deriving DecidableEq, Repr

/-- The machine's state. -/
structure State where
  /-- The commands that wait, first in first out (log entry 1). -/
  pending : List Instr
  regs : Tab Word
  mem : Tab Byte
  /-- Error pattern of each 64-bit word with its check bits, by word address (R277): the bits that differ from the valid code word. -/
  ecc : Tab (BitVec 72)
  hostMem : Tab Byte
  out : List Out
  fresh : Nat
  pins : Pins
  tb : TimeBase
  err : ErrQueue
  hep : HostEp
  col : Collector
  saf : Safety
  pool : Pools
  hal : Halyard
  cfg : Grants
  pwt : Power
  cores : Tab Core
  pln : Planner
  ing : Ingress
  dec : Decoders
  enc : Encoder
  pfe : FrontEnds
  trk : Trackers
  dram : Dram
  sec : Security
  deriving DecidableEq, Repr

/-- The machine right after POR_N has been released (log entry 2): FAULT_N asserted (R372), TB 0 (R371), every register at the Reset column of its table, no command waiting; the two register words listed show FAULT_N in MGMT_STATUS and SAF_STATUS. -/
def State.reset : State where
  pending := []
  regs := [(0xC, 0x40), (0x300000, 0x2)]
  mem := []
  ecc := []
  hostMem := []
  out := []
  fresh := 0
  pins := {}
  tb := {}
  err := {}
  hep := {}
  col := {}
  saf := {}
  pool := {}
  hal := {}
  cfg := {}
  pwt := {}
  cores := []
  pln := {}
  ing := {}
  dec := {}
  enc := {}
  pfe := {}
  trk := {}
  dram := {}
  sec := {}

end Sys2Proof.Machine
end

