-- ==== Sys2Proof/Machine/Ops.lean ====
section
/-!
DEFINITION. The named operations over registers, memory, time, errors, interrupts, faults and records that every command uses.
-/
namespace Sys2Proof.Machine

/-! ### Registers -/

/-- The power-on value of a register word (R11: the Reset columns); 0 where a table gives 0 or nothing. Fuse-valued registers take the model's fuse values (log entry 3); MSI-X vectors are masked (log entry 6). -/
def regReset (a : Nat) : Word :=
  if a < 0x100000 then
    if a = Reg.mgmtId0 then 0x96320000
    else if a = Reg.mgmtId1 then 0x00002000
    else if a = Reg.mgmtCapArrayEn then 0xFFFFFFFF
    else if a = Reg.mgmtFuncState then 1
    else if 0x10000 ≤ a ∧ a < 0x18000 ∧ a % 16 = 12 then 1
    else 0
  else if a < 0x300000 then
    if a = Reg.tbCtrl then 0x1F4
    else if a = Reg.tbIncr + 4 then 0x28
    else if a = Reg.pwtPowerCap then 28000
    else if a = Reg.pwtVddArray then 800
    else if a = Reg.pwtVddLogic then 800
    else if a = Reg.pwtMargin then 5
    else if a = Reg.pwtPdState 12 then 0xAAAA
    else 0
  else if a < 0x500000 then
    if a = Reg.safLimits0 then 0x03E803E8
    else if a = Reg.safLimits1 then 0x0A0303E8
    else if a = Reg.errFirstAddr then 0xFFFFFFFF
    else if a = Reg.errFirstAddr + 4 then 0xFFFFFFFF
    else 0
  else if a < 0xA00000 then
    if a = Reg.ingEthPause 0 then 0xFFFF
    else if a = Reg.ingEthPause 1 then 0xFFFF
    else if a = Reg.decCtrl then 0x00644E20
    else if 0x708000 ≤ a ∧ a < 0x709000 ∧ a % 0x40 = 4 then 1
    else if a = Reg.pfeCtrl then 0x3E8
    else 0
  else if a < 0xB00000 then
    if a < 0xA80000 ∧ a % 0x10000 = 0 then 0x4F + BitVec.ofNat 32 ((bits a 16 3 ^^^ 1) <<< 8)
    else if a < 0xA80000 ∧ a % 0x10000 = 12 then 0x55
    else 0
  else if a < 0xF00000 then
    if 0xB08000 ≤ a ∧ a < 0xB0B000 ∧ a % 0x80 = 0x50 then 1
    else if a = Reg.poolCtrl then 0x3E8
    else 0
  else if a < 0x1000000 then
    if a = Reg.ddrCtrl then 0x7D0003E8
    else if a = Reg.ddrRefresh then 0x5502
    else if a = Reg.ddrZq then 0x80
    else if a = Reg.ddrCeThresh then 0x10
    else if a = Reg.memDmaLimit then 10
    else if a = Reg.memScrubCtrl then 0x20
    else if a = Reg.memScrubFirst ∨ a = Reg.memScrubFirst + 4 then 0xFFFFFFFF
    else if a = Reg.memScrubLast ∨ a = Reg.memScrubLast + 4 then 0xFFFFFFFF
    else if a = Reg.ddrHash 0 then 0x88880100
    else if a = Reg.ddrHash 1 then 0x11100200
    else if a = Reg.ddrHash 1 + 4 then 1
    else if a = Reg.ddrHash 2 then 0x02208000
    else if a = Reg.ddrHash 3 then 0x04410000
    else if a = Reg.ddrHash 4 then 0x20020000
    else if a = Reg.ddrHash 4 + 4 then 2
    else if a = Reg.ddrHash 5 then 0x40040000
    else if a = Reg.ddrHash 5 + 4 then 4
    else if 0xF10000 ≤ a ∧ a < 0xF50000 ∧ a % 0x10000 = 0 then 0x30
    else if Reg.memRepair 0 ≤ a ∧ a < Reg.memRepair 160 then 0x40
    else if Reg.memRepair 192 ≤ a ∧ a < Reg.memRepair 224 then 0x20
    else 0
  else if a < 0x100000000 then 0
  else if a % 0x100000 = 0 then 0x96330000
  else if 0xC000 ≤ a % 0x100000 ∧ a % 0x100000 < 0xC800 ∧ a % 16 = 12 then 1
  else 0

/-- The 32-bit register word at a BAR0 offset. -/
def State.rd (s : State) (a : Nat) : Nat := (Tab.read regReset s.regs a).toNat

/-- The register word replaced by the low 32 bits of `v`. -/
def State.wr (s : State) (a v : Nat) : State :=
  { s with regs := Tab.write regReset s.regs a (BitVec.ofNat 32 v) }

/-- A 64-bit register, low word first (R8). -/
def State.rd64 (s : State) (a : Nat) : Nat := s.rd a + 2 ^ 32 * s.rd (a + 4)

/-- A 64-bit register replaced. -/
def State.wr64 (s : State) (a v : Nat) : State := (s.wr a v).wr (a + 4) (v >>> 32)

/-- `n` register words from `a` on as one number, first word least significant. -/
def State.rdWords (s : State) (a : Nat) : Nat → Nat
  | 0 => 0
  | n + 1 => s.rd a + 2 ^ 32 * State.rdWords s (a + 4) n

/-- `n` register words from `a` on replaced by a number. -/
def State.wrWords (s : State) (a : Nat) : Nat → Nat → State
  | 0, _ => s
  | n + 1, v => State.wrWords (s.wr a v) (a + 4) n (v >>> 32)

/-- A field of a register word. -/
def State.fld (s : State) (a lo len : Nat) : Nat := bits (s.rd a) lo len

/-- A bit of a register word. -/
def State.bitAt (s : State) (a i : Nat) : Bool := bit (s.rd a) i

/-- A field of a register word replaced. -/
def State.setFld (s : State) (a lo len x : Nat) : State := s.wr a (putBits (s.rd a) lo len x)

/-- A 32-bit counter raised; it holds 0xFFFF_FFFF (counters are saturating). -/
def State.bump (s : State) (a n : Nat) : State := s.wr a (satAdd 32 (s.rd a) n)

/-- A 64-bit counter raised; it holds all ones (counters are saturating). -/
def State.bump64 (s : State) (a n : Nat) : State := s.wr64 a (satAdd 64 (s.rd64 a) n)

/-- Registers of `[lo, hi)` back at their power-on values. -/
def State.clearRegs (s : State) (lo hi : Nat) : State := { s with regs := Tab.clear s.regs lo hi }

/-- Registers of a kind back at their power-on values. -/
def State.clearSome (s : State) (sel : Nat → Bool) : State := { s with regs := s.regs.filter (fun e => !(sel e.1)) }

/-! ### Time -/

/-- The vote of R43: the value two copies agree on; without a majority, the first copy (which value TB then shows is open, log entry 8). -/
def TimeBase.vote (t : TimeBase) : BitVec 96 :=
  if t.c0 = t.c1 ∨ t.c0 = t.c2 then t.c0 else if t.c1 = t.c2 then t.c1 else t.c0

/-- TB in ns (R21, R43). -/
def State.now (s : State) : Nat := s.tb.vote.toNat / 2 ^ 32

/-! ### Free values -/

/-- A fresh value of `w` bits that the manual leaves open, and the state with the counter advanced (log entry 4). -/
def State.takeFree (s : State) (w : Nat) : Nat × State :=
  ((Config.freeBits w s.fresh).toNat, { s with fresh := s.fresh + 1 })

/-! ### Memory and host memory -/

/-- What an unlisted byte of device or host memory reads as (log entry 5). -/
def memDefault (_ : Nat) : Byte := 0

/-- The canonical form of a memory: rising addresses, no byte listed that an unlisted one reads as. -/
def Memory.wf (m : Tab Byte) : Bool := Tab.wf memDefault m

/-- The byte at a device address. -/
def State.rdByte (s : State) (a : Nat) : Byte := Tab.read memDefault s.mem a

/-- The byte at a device address replaced. -/
def State.wrByte (s : State) (a : Nat) (b : Byte) : State :=
  { s with mem := Tab.write memDefault s.mem a b }

/-- `n` bytes of device memory as a little-endian number (R8). -/
def State.rdMem (s : State) (a : Nat) : Nat → Nat
  | 0 => 0
  | n + 1 => (s.rdByte a).toNat + 256 * State.rdMem s (a + 1) n

/-- `n` bytes of device memory replaced by a little-endian number, without a look at their check bits. -/
def State.wrBytes (s : State) (a : Nat) : Nat → Nat → State
  | 0, _ => s
  | n + 1, v => State.wrBytes (s.wrByte a (BitVec.ofNat 8 v)) (a + 1) n (v >>> 8)

/-- An output event. -/
def State.emit (s : State) (o : Out) : State := { s with out := o :: s.out }

/-- Relaxed ordering, if enabled, of a request of function `f` (R341). -/
def State.relaxed (s : State) (f : Nat) : Bool := s.hep.relaxed.getLsbD f

/-- A byte that the device writes to host memory of a function: the key is the function above a 64-bit address (R20). -/
def State.hostByte (s : State) (f a : Nat) (b : Byte) : State :=
  { s with hostMem := Tab.write memDefault s.hostMem (f * 2 ^ 64 + a) b }

/-- `n` bytes that the device writes to host memory. -/
def State.hostWr (s : State) (f a : Nat) : Nat → Nat → State
  | 0, _ => s
  | n + 1, v => State.hostWr (s.hostByte f a (BitVec.ofNat 8 v)) f (a + 1) n (v >>> 8)

/-- A posted write of `n` bytes to host memory with its attribute (R341, Table 14.6). -/
def State.hostPost (s : State) (f a n v : Nat) (ro : Bool) : State := (s.hostWr f a n v).emit (.hostWrite f a n ro)

/-- A read of `n` bytes of host memory, with relaxed ordering if enabled (R341, Table 14.6). -/
def State.hostGet (s : State) (f a n : Nat) : State := s.emit (.hostRead f a n (s.relaxed f))

/-! ### Functions and interrupts -/


/-- Does function `f` exist (R332, MGMT_FUNC_STATE)? -/
def State.fnExists (s : State) (f : Nat) : Bool := s.bitAt Reg.mgmtFuncState f

/-- Is partition `p` processing (R332, MGMT_FUNC_STATE)? -/
def State.processing (s : State) (p : Nat) : Bool := s.bitAt Reg.mgmtFuncState (16 + p)

/-- May function `f` issue DMA and messages (R331, R332)? -/
def State.canIssue (s : State) (f : Nat) : Bool :=
  s.fnExists f && s.hep.bme.getLsbD f && !(s.hep.d3hot.getLsbD f)

/-- The vector control word of a function's MSI-X table entry (14, Table 14.4). -/
def msixCtl (f v : Nat) : Nat := if f = 0 then 0x10000 + 16 * v + 12 else vfBase f + 0xC000 + 16 * v + 12

/-- The word of a function's pending bit array that holds vector `v`. -/
def msixPba (f v : Nat) : Nat := if f = 0 then 0x18000 + 4 * (v / 32) else vfBase f + 0xD000 + 4 * (v / 32)

/-- An MSI-X message of function `f`: a masked vector sets its pending bit (R339), and so does one that the function may not issue now (R331, log entry 9). -/
def State.msix (s : State) (f v : Nat) : State :=
  if s.bitAt (msixCtl f v) 0 || !(s.canIssue f) then s.setFld (msixPba f v) (v % 32) 1 1
  else s.emit (.msix f v)

/-! ### Error events (R435 to R442, R339) -/

/-- The sticky error register of an index of Table 19.1 and one of its copies. -/
def errReg (idx unit : Nat) : Nat :=
  match idx with
  | 0 => Reg.mgmtErr
  | 1 => Reg.ingCsiErr unit
  | 2 => Reg.ingEthErr (unit - 8)
  | 3 => Reg.decErr
  | 4 => Reg.encErr
  | 5 => Reg.pfeErr
  | 6 => Reg.tcErr unit
  | 7 => Reg.memErr
  | 8 => Reg.errPln
  | 9 => Reg.trkErr
  | 10 => Reg.colErr
  | 11 => Reg.poolErr
  | 12 => Reg.halErr
  | 13 => Reg.ddrErr
  | 14 => Reg.safErr
  | 15 => Reg.tbErr
  | 16 => Reg.pwtErr
  | 17 => Reg.secErr
  | _ => Reg.secBootErr

/-- The interrupt enable register beside it; TB_ERR has none. -/
def errIntEn (idx unit : Nat) : Option Nat :=
  match idx with
  | 0 => some Reg.mgmtIntEn
  | 1 => some (Reg.ingCsiIntEn unit)
  | 2 => some (Reg.ingEthIntEn (unit - 8))
  | 3 => some Reg.decIntEn
  | 4 => some Reg.encIntEn
  | 5 => some Reg.pfeIntEn
  | 6 => some (Reg.tcIntEn unit)
  | 7 => some Reg.memIntEn
  | 8 => some Reg.errPlnIntEn
  | 9 => some Reg.trkIntEn
  | 10 => some Reg.colIntEn
  | 11 => some Reg.poolIntEn
  | 12 => some Reg.halIntEn
  | 13 => some Reg.ddrIntEn
  | 14 => some Reg.safIntEn
  | 15 => none
  | 16 => some Reg.pwtIntEn
  | 17 => some Reg.secIntEn
  | _ => some Reg.secBootIntEn

/-- The subsystem number of an index (Table 19.1). -/
def errSubsys (idx : Nat) : Nat :=
  match idx with
  | 0 => 1 | 1 => 2 | 2 => 2 | 3 => 3 | 4 => 4 | 5 => 5 | 6 => 6 | 7 => 7 | 8 => 8 | 9 => 9 | 10 => 10
  | 11 => 11 | 12 => 12 | 13 => 13 | 14 => 14 | 15 => 15 | 16 => 15 | _ => 16

/-- Units of index `idx` in the always-on domain raise events while the rest is held in reset (R441): the safety island, the time base, the fusee loop, the fuse and boot controller. -/
def errAlwaysOn (idx : Nat) : Bool := idx == 14 || idx == 15 || idx == 16 || idx == 18

/-- One error event: the sticky bit is set, vector 1 of the PF fires where the bit rises with its interrupt enabled (R339), and the stamped event goes on its way to the ERR block (R436 to R438). A unit held in reset raises none (R441, R372). -/
def State.raise (s : State) (e : ErrEvent) : State :=
  if s.pins.porLow && !(errAlwaysOn e.idx) then s
  else
    let r := errReg e.idx e.unit
    let rose := !(s.bitAt r e.bit)
    let en := match errIntEn e.idx e.unit with
      | some a => s.bitAt a e.bit
      | none => false
    let s1 := s.setFld r e.bit 1 1
    let s2 := if rose && en then s1.msix 0 1 else s1
    { s2 with err := { s2.err with pend := s2.err.pend ++ [{ e with tb := s.now }] } }

/-- The class S bit of a partition in SAF_PART (Table 13.12). -/
def State.classS (s : State) (p : Nat) : Bool := s.bitAt (Reg.safPart p) 0

/-- Is a class S partition running (SAF_STATUS.class_s_active)? -/
def State.sActive (s : State) : Bool := s.bitAt Reg.safStatus 0

/-- The subsystem of a control pair (Table 1.1): SM belongs to the safety island, the others to planning; 0 PA, 1 PB, 2 SM, 3 SP. -/
def controlSubsys (k : Nat) : Nat := if k = 2 then 14 else 8

/-- A detected fault starts on its way to the safety island, stamped (R318, R44). -/
def State.fault (s : State) (r : FaultReport) : State :=
  { s with saf := { s.saf with reports := s.saf.reports ++ [{ r with tb := s.now }] } }

/-- A detected fault when the partition concerned is class S. -/
def State.faultIfS (s : State) (p : Nat) (r : FaultReport) : State :=
  if s.classS p then s.fault { r with part := some p } else s

/-! ### Records -/

/-- A record that a producer has ready for a collector port (R241). -/
def State.handRec (s : State) (port : Nat) (r : Rec) : State :=
  { s with col := { s.col with queue := updAt s.col.queue port (fun q => q ++ [r]) } }

/-- TC_CFG of a core: locked, and in a locked pair even for the core that writes outputs and performs signals (R150, Table 6.10). -/
def State.setLock (s : State) (c : Nat) (lock : Bool) : State :=
  s.setFld (Reg.tcCfg c) 0 2 (b2n lock + 2 * b2n (lock && decide (c % 2 = 0)))

end Sys2Proof.Machine
end

