-- ==== Sys2Proof/Machine/Memory.lean ====
section
/-!
DEFINITION. Memories: the address map, grants, the DRAM mapping, check bits and error logs (R269 to R283, R294 to R296).
-/
namespace Sys2Proof.Machine

/-! ### The address map (Tables 12.1, 12.2) -/

/-- A memory of Table 12.1: 0 DRAM, 1 stream memory, 2 scratchpad, 3 accumulator, 4 weight stage, 5 control core; none where nothing is mapped. -/
def memKind (a : Nat) : Option Nat :=
  if a < 0x1000000000 then some 0
  else if a < 0x1001000000 then some 1
  else
    let o := a % 0x1000000
    let u := bits a 24 4
    if a >>> 28 = 0x101 ∧ u < 8 ∧ o < 0x400000 then some 2
    else if a >>> 28 = 0x102 ∧ u < 8 ∧ o < 0x100000 then some 3
    else if a >>> 28 = 0x103 ∧ u < 8 ∧ o < 0x80000 then some 4
    else if a >>> 28 = 0x104 ∧ u < 8 ∧ o < 0x80000 then some 5
    else none

/-- The core or control core of an on-chip address. -/
def memUnit (a : Nat) : Nat := bits a 24 4

/-- The memory index of Table 12.2; 0xFF for DRAM. -/
def memIndex (a : Nat) : Nat :=
  match memKind a with
  | some 1 => 128 + bits a 19 5
  | some 2 => 16 * memUnit a + bits a 18 4
  | some 3 => 160 + 4 * memUnit a + bits a 18 2
  | some 4 => 192 + 2 * memUnit a + bits a 18 1
  | some 5 => 208 + 2 * memUnit a + bits a 18 1
  | _ => 0xFF

/-- The first address of a scratchpad bank of a core. -/
def scratchAddr (c bank : Nat) : Nat := 0x1010000000 + 0x1000000 * c + 0x40000 * bank

/-! ### Grants (Table 13.1) -/

/-- Does `[a, a+n)` lie within one of a partition's DRAM windows (R294)? -/
def State.inWindow (s : State) (p a n : Nat) : Bool :=
  (Tab.read (fun _ => []) s.cfg.windows p).any (fun w => decide (w.1 ≤ a) && decide (a + n ≤ w.1 + w.2))

/-- The scratchpad bank mask of a partition on a core (Table 13.1). -/
def State.scratchMask (s : State) (p c : Nat) : Nat := Tab.read (fun _ => 0) s.cfg.scratch (8 * p + c)

/-- The stream memory bank mask of a partition (Table 13.1). -/
def State.streamMask (s : State) (p : Nat) : Nat := Tab.read (fun _ => 0) s.cfg.sbanks p

/-- Does an address lie in a pool whose grant mask names partition `p` (R295)? -/
def State.inSharedPool (s : State) (p a n : Nat) : Bool :=
  loopUp 256 (fun k b =>
    b || (s.bitAt (Reg.poolDesc k) 0 && s.bitAt (Reg.poolDesc k) (16 + p)
      && decide (s.rd64 (Reg.poolDesc k + 8) ≤ a)
      && decide (a + n ≤ s.rd64 (Reg.poolDesc k + 8) + s.rd (Reg.poolDesc k + 4) * s.fld (Reg.poolDesc k + 20) 0 21))) false

/-- Is an access of partition `p` to `[a, a+n)` within its grants (R294, R295)? Memories of a core and of a control core carry no grant of their own. -/
def State.granted2 (s : State) (p a n : Nat) : Bool :=
  match memKind a with
  | some 0 => s.inWindow p a n || s.inSharedPool p a n
  | some 1 => (s.streamMask p).testBit (bits a 19 5)
  | some 2 => (s.scratchMask p (memUnit a)).testBit (bits a 18 4)
  | some _ => true
  | none => true

/-- The partition or, as 16, the safety island that owns a memory address; none without an owner. -/
def State.memOwner (s : State) (a : Nat) : Option Nat :=
  match memKind a with
  | some 0 => (List.range 17).find? (fun p => s.inWindow p a 1)
  | some 1 => (List.range 17).find? (fun p => (s.streamMask p).testBit (bits a 19 5))
  | some 2 => (List.range 17).find? (fun p => (s.scratchMask p (memUnit a)).testBit (bits a 18 4))
  | some 5 => some 16
  | _ => none

/-! ### The DRAM mapping (R283) -/

/-- A hash mask: 0 CH0, 1 CH1, 2 BG0, 3 BG1, 4 BA0, 5 BA1, 6 RANK. -/
def State.hashMask (s : State) (i : Nat) : Nat := s.rd64 (Reg.ddrHash i) % 2 ^ 36

/-- A hashed field of an address: the XOR of the bits that its mask names. -/
def State.hashBit (s : State) (i a : Nat) : Nat := popCount 36 (a &&& s.hashMask i) % 2

/-- Channel, 0 for A. -/
def State.chanOf (s : State) (a : Nat) : Nat := 2 * s.hashBit 1 a + s.hashBit 0 a

/-- The location byte of Table 12.13: rank, bank group, bank. -/
def State.locOf (s : State) (a : Nat) : Nat :=
  s.hashBit 6 a + (2 * s.hashBit 3 a + s.hashBit 2 a) <<< 1 + (2 * s.hashBit 5 a + s.hashBit 4 a) <<< 3

/-- Is address bit `b` the anchor of a field? -/
def State.isAnchor (s : State) (b : Nat) : Bool :=
  loopUp 7 (fun i r => r || decide (s.hashMask i ≠ 0 ∧ firstSet (s.hashMask i) 0 36 = some b)) false

/-- The address bits from 3 up that are no anchor, packed: column first, then row. -/
def State.packedAddr (s : State) (a : Nat) : Nat :=
  (loopUp 33 (fun k (x : Nat × Nat) =>
    if s.isAnchor (k + 3) then x else (x.1 + bits a (k + 3) 1 <<< x.2, x.2 + 1)) (0, 0)).1

/-- Column and row of an address. -/
def State.colOf (s : State) (a : Nat) : Nat := s.packedAddr a % 2 ^ s.dram.colBits
/-- The row of an address. -/
def State.rowOfAddr (s : State) (a : Nat) : Nat := (s.packedAddr a >>> s.dram.colBits) % 2 ^ s.dram.rowBits

/-- Address bits of the populated DRAM. -/
def State.dramBits (s : State) : Nat :=
  3 + s.dram.colBits + s.dram.rowBits + loopUp 7 (fun i n => if s.hashMask i = 0 then n else n + 1) 0

/-- Is the DRAM address populated, and its channel ready (R269, R285)? -/
def State.dramOk (s : State) (a : Nat) : Bool :=
  decide (a < 2 ^ s.dramBits) && s.bitAt Reg.ddrPop (s.chanOf a) && decide (s.fld (Reg.ddrChStatus (s.chanOf a)) 0 2 = 2)

/-- Is an address mapped to memory (R269)? -/
def State.mapped (s : State) (a : Nat) : Bool :=
  match memKind a with
  | some 0 => decide (a < 2 ^ s.dramBits) && s.bitAt Reg.ddrPop (s.chanOf a)
  | some _ => true
  | none => false

/-! ### Error logs and events (Tables 12.12, 12.13) -/

/-- An entry of an error log. -/
def State.logEntry (s : State) (a typ bt req : Nat) (part : Option Nat) : Nat :=
  let dr := decide (memKind a = some 0)
  s.now + (a % 2 ^ 64) <<< 64 + typ <<< 128 + bt <<< 136 + req <<< 144 + (part.getD 0xFF) <<< 152
    + (if dr then s.locOf a else memIndex a) <<< 160 + (if dr then s.rowOfAddr a else 0) <<< 192

/-- An entry put in the ring of the channel or of the on-chip memories. -/
def State.putLog (s : State) (a entry : Nat) : State :=
  let dr := decide (memKind a = some 0)
  let x := s.chanOf a
  let idx := if dr then Reg.ddrElogIdx x else Reg.memElogIdx
  let n := s.fld idx 0 4
  let s1 := s.wrWords (if dr then Reg.ddrElog x n else Reg.memElog n) 8 entry
  s1.wr idx ((n + 1) % 16 + (min 255 (s.fld idx 8 8 + 1)) <<< 8)

/-- An event of the memories or of a DRAM channel: bit `bm` of MEM_ERR or `bd` of DDR_ERR. -/
def State.memEvent (s : State) (a bm bd req : Nat) (part : Option Nat) : State :=
  if memKind a = some 0 then s.raise { idx := 13, unit := s.chanOf a, bit := bd, part := part, aux := s.locOf a, addr := a }
  else s.raise { idx := 7, unit := req, bit := bm, part := part, aux := memIndex a, addr := a }

/-- Does a class S partition or the safety island own the address, outside a locked core's own memories (R279, R312)? -/
def State.ownedS (s : State) (a : Nat) : Option Nat :=
  let locked := (memKind a = some 2 ∨ memKind a = some 3 ∨ memKind a = some 4) ∧ s.bitAt (Reg.tcCfg (memUnit a)) 0 = true
  if locked then none
  else match s.memOwner a with
    | some p => if p = 16 || s.classS p then some p else none
    | none => none

/-- The number of erroneous bits of a word. -/
def State.flips (s : State) (w : Nat) : Nat := popCount 72 (Tab.read (fun _ => 0) s.ecc w).toNat

/-- The corrections of a channel within the present second of TB (R278). -/
def State.noteRate (s : State) (x a : Nat) : State :=
  let sec := s.now / 1000000000
  let old := Tab.read (fun _ => (0, 0)) s.dram.ceSec x
  let n := if old.1 = sec then old.2 + 1 else 1
  let s1 := { s with dram := { s.dram with ceSec := Tab.write (fun _ => (0, 0)) s.dram.ceSec x (sec, n) } }
  if n = s.rd Reg.ddrCeThresh + 1 then s1.memEvent a 0 5 0 none else s1

/-- A corrected word (R278). -/
def State.noteCe (s : State) (a req : Nat) (part : Option Nat) (bt : Nat) : State :=
  let dr := decide (memKind a = some 0)
  let s1 := (s.bump (if dr then Reg.ddrCeCnt (s.chanOf a) else Reg.memCeCnt) 1).memEvent a 0 0 req part
  let s2 := s1.putLog a (s.logEntry a 1 bt req part)
  if dr then s2.noteRate (s.chanOf a) a else s2

/-- An uncorrectable word read: counted, reported, and logged with a type of Table 12.13 (R279). -/
def State.countUe (s : State) (a typ req : Nat) (part : Option Nat) : State :=
  let s1 := (s.bump (if memKind a = some 0 then Reg.ddrUeCnt (s.chanOf a) else Reg.memUeCnt) 1).memEvent a 1 1 req part
  s1.putLog a (s.logEntry a typ 0xFF req part)

/-- A detected fault with cause MEMORY, where a class S partition or the safety island owns the word (R279). -/
def State.ueFault (s : State) (a : Nat) : State :=
  let dr := decide (memKind a = some 0)
  match s.ownedS a with
  | some p => s.fault { cause := 0x0A, subsys := if dr then 13 else 7, unit := if dr then s.chanOf a else memIndex a, part := if p < 16 then some p else none }
  | none => s

/-- An uncorrectable word read by a requester (R279). -/
def State.noteUe (s : State) (a req : Nat) (part : Option Nat) : State := (s.countUe a 2 req part).ueFault a

/-- The listed words in error that `[a, a+n)` touches. -/
def State.badWords (s : State) (a n : Nat) : List (Nat × BitVec 72) :=
  if n = 0 then [] else s.ecc.filter (fun e => decide (a / 8 ≤ e.1) && decide (e.1 ≤ (a + n - 1) / 8))

/-- Is a word of `[a, a+n)` uncorrectable (R277)? -/
def State.uncorr (s : State) (a n : Nat) : Bool := (s.badWords a n).any (fun e => decide (1 < popCount 72 e.2.toNat))

/-- A read by a requester: every word in error is counted, reported and logged (R278, R279). -/
def State.noteRead (s : State) (req : Nat) (part : Option Nat) (a n : Nat) : State :=
  (s.badWords a n).foldl (fun x e =>
    if popCount 72 e.2.toNat = 1 then x.noteCe (8 * e.1) req part ((firstSet e.2.toNat 0 72).getD 0)
    else x.noteUe (8 * e.1) req part) s

/-- A request of partition `p` outside its grant (R296): SAF_ERR.fence, the first capture, a detected fault in class S. Kind: 0 DRAM, 1 scratchpad, 2 stream memory, 3 halo. -/
def State.fenceHit (s : State) (p kind a : Nat) : State :=
  let s1 := if s.bitAt Reg.safErr 8 then s
    else (s.wr Reg.safFenceLoc (p % 16 + kind <<< 4 + memIndex a <<< 8)).wr64 Reg.safFenceAddr a
  let s2 := s1.raise { idx := 14, unit := 0, bit := 8, part := some p, detail := if s.classS p then 0x0E else 0, addr := a }
  s2.faultIfS p { cause := 0x0E, subsys := 14, unit := 0 }

/-! ### Writes (R280) -/

/-- The unit of a read-modify-write: a word, in DRAM a burst of 64 bytes. -/
def rmwSpan (a n : Nat) : Nat × Nat :=
  let g := if memKind a = some 0 then 64 else 8
  (a / g * g, ceilDiv (a + n) g * g)

/-- One erroneous word under a write of `[a, a+n)`: replaced when covered, corrected and counted when correctable, else the poison pattern: zeros that decode as uncorrectable. -/
def State.settleWord (s : State) (req : Nat) (part : Option Nat) (a n : Nat) (e : Nat × BitVec 72) : State :=
  let covered := decide (a ≤ 8 * e.1) && decide (8 * e.1 + 8 ≤ a + n)
  if covered then { s with ecc := Tab.erase s.ecc e.1 }
  else if popCount 72 e.2.toNat = 1 then
    { s.noteCe (8 * e.1) req part ((firstSet e.2.toNat 0 72).getD 0) with ecc := Tab.erase s.ecc e.1 }
  else
    let s1 := loopUp 8 (fun k x => x.wrByte (8 * e.1 + k) 0) s
    (s1.memEvent (8 * e.1) 4 7 req part).putLog (8 * e.1) (s.logEntry (8 * e.1) 5 0xFF req part)

/-- `n` bytes written by a requester of a partition, as a little-endian number, with the check bits of R280. -/
def State.wrMemBy (s : State) (req : Nat) (part : Option Nat) (a n v : Nat) : State :=
  let sp := rmwSpan a n
  ((s.wrBytes a n v).badWords sp.1 (sp.2 - sp.1)).foldl (fun x e => x.settleWord req part a n e) (s.wrBytes a n v)

/-- `n` bytes written by a device unit: in logs the requester is the memory subsystem (log entry 17). -/
def State.wrMem (s : State) (a n v : Nat) : State := s.wrMemBy 0x60 none a n v

end Sys2Proof.Machine
end

