-- ==== Sys2Proof/Machine/Queues.lean ====
section
/-!
DEFINITION. Queues of the halyard network: descriptor fields (Table 11.2), indices and credits (R255), threshold interrupts (R257), entries of internal and submission queues.
-/
namespace Sys2Proof.Machine

/-- The queue number that descriptors use for none (R254). -/
def noQueue : Nat := 0x3FFF

/-- Queue type: 0 submission, 1 result, 2 internal (Table 11.2). -/
def State.qType (s : State) (q : Nat) : Nat := s.fld (Reg.halQueueDesc q) 0 2
/-- The enable bit. -/
def State.qEnabled (s : State) (q : Nat) : Bool := s.bitAt (Reg.halQueueDesc q) 2
/-- Overflow policy: 0 STALL_DROP, 1 DROP, 2 STALL_FAULT. -/
def State.qOverflow (s : State) (q : Nat) : Nat := s.fld (Reg.halQueueDesc q) 4 2
/-- log2 of the number of entries. -/
def State.qLog (s : State) (q : Nat) : Nat := s.fld (Reg.halQueueDesc q) 8 5
/-- Is the queue allocated: named by a HALYARD item, which gives it 16 entries or more (R254, R358)? -/
def State.qAllocated (s : State) (q : Nat) : Bool := decide (4 ≤ s.qLog q)
/-- The number of entries. -/
def State.qSize (s : State) (q : Nat) : Nat := 2 ^ s.qLog q
/-- The owner partition. -/
def State.qOwner (s : State) (q : Nat) : Nat := s.fld (Reg.halQueueDesc q) 16 4
/-- The reserve of STALL_FAULT: 0 means 8. -/
def State.qReserve (s : State) (q : Nat) : Nat :=
  let r := s.fld (Reg.halQueueDesc q) 24 8
  if r = 0 then 8 else r
/-- The stall bound in µs: DROP has 0, and 0 with STALL_DROP means 1,000 (R245). -/
def State.qStallUs (s : State) (q : Nat) : Nat :=
  let u := s.rd (Reg.halQueueDesc q + 4)
  if s.qOverflow q = 1 then 0 else if s.qOverflow q = 0 ∧ u = 0 then 1000 else u
/-- The ring base. -/
def State.qBase (s : State) (q : Nat) : Nat := s.rd64 (Reg.halQueueDesc q + 8)
/-- The shadow index address; 0 means none. -/
def State.qShadow (s : State) (q : Nat) : Nat := s.rd64 (Reg.halQueueDesc q + 16)
/-- The queue's MSI-X vector. -/
def State.qVector (s : State) (q : Nat) : Nat := s.fld (Reg.halQueueDesc q + 24) 0 16
/-- The fill threshold; 0 disables. -/
def State.qThrFill (s : State) (q : Nat) : Nat := s.fld (Reg.halQueueDesc q + 24) 16 16
/-- The room threshold; 0 disables. -/
def State.qThrRoom (s : State) (q : Nat) : Nat := s.fld (Reg.halQueueDesc q + 28) 0 16
/-- The producer index P. -/
def State.qP (s : State) (q : Nat) : Nat := s.rd (Reg.halQueueDesc q + 32)
/-- The consumer index C. -/
def State.qC (s : State) (q : Nat) : Nat := s.rd (Reg.halQueueDesc q + 36)

/-- Entries held, P − C modulo 2^32 (R255). -/
def State.qHeld (s : State) (q : Nat) : Nat := (s.qP q + 2 ^ 32 - s.qC q) % 2 ^ 32

/-- Free entries, the producer's credits: none while a queue is disabled (R255). -/
def State.qFree (s : State) (q : Nat) : Nat := if s.qEnabled q then s.qSize q - s.qHeld q else 0

/-- The address of entry `i` (R255). -/
def State.qEntry (s : State) (q i : Nat) : Nat := s.qBase q + 64 * (i % s.qSize q)

/-- The queue's interrupt to its owner. -/
def State.qInterrupt (s : State) (q : Nat) : State := s.msix (s.qOwner q) (s.qVector q)

/-- The shadow index written to host memory of the owner, where one is named (R257). -/
def State.qWriteShadow (s : State) (q idx : Nat) : State :=
  if s.qShadow q = 0 then s else s.hostPost (s.qOwner q) (s.qShadow q) 4 idx false

/-- P moves on: the fill interrupt fires at the crossing of thr_fill (R257). -/
def State.qSetP (s : State) (q p' : Nat) : State :=
  let was := s.qHeld q
  let s1 := s.wr (Reg.halQueueDesc q + 32) p'
  if s.qThrFill q ≠ 0 ∧ was < s.qThrFill q ∧ s.qThrFill q ≤ s1.qHeld q then s1.qInterrupt q else s1

/-- C moves on: the room interrupt fires at the crossing of thr_room (R257). -/
def State.qSetC (s : State) (q c' : Nat) : State :=
  let was := s.qSize q - s.qHeld q
  let s1 := s.wr (Reg.halQueueDesc q + 36) c'
  if s.qThrRoom q ≠ 0 ∧ was < s.qThrRoom q ∧ s.qThrRoom q ≤ s1.qSize q - s1.qHeld q then s1.qInterrupt q else s1

/-- Enable from 0 to 1: P and C become 0, and with them the lap 1 (R255). -/
def State.qEnable (s : State) (q : Nat) : State :=
  (((s.setFld (Reg.halQueueDesc q) 2 1 1).wr (Reg.halQueueDesc q + 32) 0).wr (Reg.halQueueDesc q + 36) 0)

/-- Enable to 0: the indices stay (R255). -/
def State.qDisable (s : State) (q : Nat) : State := s.setFld (Reg.halQueueDesc q) 2 1 0

/-- An internal queue emptied: enable cleared and set again (R343, R255). -/
def State.qEmpty (s : State) (q : Nat) : State := (s.qDisable q).qEnable q

/-- One 64-byte entry onto an internal queue; nothing where it has no credit (R255). -/
def State.enqueue (s : State) (q entry : Nat) : State :=
  if s.qFree q = 0 then s
  else (s.wrMem (s.qEntry q (s.qP q)) 64 entry).qSetP q ((s.qP q + 1) % 2 ^ 32)

/-- The oldest entry of an internal queue, if one is held. -/
def State.queueHead (s : State) (q : Nat) : Option Nat :=
  if s.qEnabled q && decide (0 < s.qHeld q) then some (s.rdMem (s.qEntry q (s.qC q)) 64) else none

/-- The oldest entry taken: C moves on. -/
def State.dequeue (s : State) (q : Nat) : State := s.qSetC q ((s.qC q + 1) % 2 ^ 32)

/-- An internal queue's oldest entry, at an address, is lost with its queue's enable: MEM_ERR.queue_ue (Table 12.3). -/
def State.loseEntry (s : State) (q a : Nat) (part : Nat) : State :=
  ((s.dequeue q).qDisable q).raise { idx := 7, unit := 0xB0, bit := 8, part := some part, aux := memIndex a, addr := a }

/-- The halyard network reads the oldest entry of an internal queue; one that reads uncorrectable is lost (R279, Table 12.3). -/
def State.readHead (s : State) (q : Nat) : State × Option Nat :=
  match s.queueHead q with
  | none => (s, none)
  | some v =>
    let a := s.qEntry q (s.qC q)
    let s1 := s.noteRead 0xB0 (some (s.qOwner q)) a 64
    if s.uncorr a 64 then (s1.loseEntry q a (s.qOwner q), none) else (s1, some v)

/-- The device takes the next entry of a submission queue: it is read, from the host where the ring lies there (R341), C moves on, and the shadow consumer index is written before the entry is acted on (R347). -/
def State.takeSubmission (s : State) (q : Nat) : State :=
  let c := (s.qC q + 1) % 2 ^ 32
  let s1 := if s.bitAt (Reg.halQueueDesc q) 20 then s else s.hostGet (s.qOwner q) (s.qEntry q (s.qC q)) 64
  (s1.qWriteShadow q c).qSetC q c

end Sys2Proof.Machine
end

