-- ==== Sys2Proof/Machine/Halyard.lean ====
section
/-!
DEFINITION. Sync objects and watches (R249 to R253).
-/
namespace Sys2Proof.Machine

/-- The sync object number that descriptors use for none (R249). -/
def noSync : Nat := 0xFFFF

/-- An error event of the halyard network, with its capture in HAL_ERR_LOC while HAL_ERR reads 0 (Table 11.9). -/
def State.halErr (s : State) (b loc : Nat) (p : Option Nat) : State :=
  let s1 := if s.rd Reg.halErr = 0 then
      s.wr Reg.halErrLoc (loc % 65536 + b <<< 16 + (p.getD 0) <<< 20)
    else s
  s1.raise { idx := 12, unit := 0, bit := b, part := p, detail := loc % 65536 }

/-- The value of a sync object; object 0xFFFF reads 0 (R249). -/
def State.syncVal (s : State) (n : Nat) : Nat := if n = noSync then 0 else s.rd64 (Reg.halSyncValue n)

/-- Is a wait on an object met (R250)? A wait that names no object is met. -/
def State.waitMet (s : State) (n thr : Nat) : Bool := n == noSync || decide (thr ≤ s.syncVal n)

/-- Is `n` in a partition's range of sync objects (HAL_RANGE_SYNC)? -/
def State.inSyncRange (s : State) (p n : Nat) : Bool :=
  let f := s.fld (Reg.halRangeSync p) 0 16
  let c := s.fld (Reg.halRangeSync p) 16 16
  decide (f ≤ n) && decide (n < f + c)

/-- Is `q` in a partition's range of queues (HAL_RANGE_QUEUE)? -/
def State.inQueueRange (s : State) (p q : Nat) : Bool :=
  let f := s.fld (Reg.halRangeQueue p) 0 14
  let c := s.fld (Reg.halRangeQueue p) 16 14
  decide (f ≤ q) && decide (q < f + c)

/-- Is `w` in a partition's range of watches (HAL_RANGE_WATCH)? -/
def State.inWatchRange (s : State) (p w : Nat) : Bool :=
  let f := s.fld (Reg.halRangeWatch p) 0 12
  let c := s.fld (Reg.halRangeWatch p) 16 13
  decide (f ≤ w) && decide (w < f + c)

/-! ### Watches -/

/-- The object a watch watches (Table 11.1). -/
def State.wObject (s : State) (w : Nat) : Nat := s.fld (Reg.halWatch w) 0 16
/-- Its action: 0 MSI-X, 1 ENQUEUE, 2 COPY. -/
def State.wAction (s : State) (w : Nat) : Nat := s.fld (Reg.halWatch w) 16 2
/-- Its armed bit. -/
def State.wArmed (s : State) (w : Nat) : Bool := s.bitAt (Reg.halWatch w) 18
/-- Its partition, from the watch range. -/
def State.wPart (s : State) (w : Nat) : Nat := s.fld (Reg.halWatch w) 24 4
/-- Its vector or queue. -/
def State.wTarget (s : State) (w : Nat) : Nat := s.fld (Reg.halWatch w + 4) 0 16
/-- Its threshold. -/
def State.wThreshold (s : State) (w : Nat) : Nat := s.rd64 (Reg.halWatch w + 8)
/-- Its first address. -/
def State.wAddrA (s : State) (w : Nat) : Nat := s.rd64 (Reg.halWatch w + 16)
/-- Its second address. -/
def State.wAddrB (s : State) (w : Nat) : Nat := s.rd64 (Reg.halWatch w + 24)
/-- The length of a COPY. -/
def State.wLength (s : State) (w : Nat) : Nat := s.rd (Reg.halWatch w + 32)
/-- COPY: from the device to the host. -/
def State.wToHost (s : State) (w : Nat) : Bool := s.bitAt (Reg.halWatch w + 36) 0
/-- The object signalled after a COPY. -/
def State.wDone (s : State) (w : Nat) : Nat := s.fld (Reg.halWatch w + 48) 0 16

/-- The watches that are armed on object `n`, in ascending number: the listed words that lie at the start of a watch. -/
def State.armedOn (s : State) (n : Nat) : List Nat :=
  (s.regs.filter (fun e =>
    decide (Reg.halWatch 0 ≤ e.1) && decide (e.1 < Reg.halWatch 4096) && decide ((e.1 - Reg.halWatch 0) % 64 = 0)
      && e.2.getLsbD 18 && decide (bits e.2.toNat 0 16 = n))).map (fun e => (e.1 - Reg.halWatch 0) / 64)

/-- One watch fires (R253): armed is cleared, fired set, fire_tb recorded, and its action done. A COPY goes in flight; its end is WATCH_COPY_DONE. -/
def State.fireWatch (s : State) (w : Nat) : State :=
  let s1 := ((s.setFld (Reg.halWatch w) 18 2 0b10).wr64 (Reg.halWatch w + 40) s.now).bump Reg.halWatchFired 1
  match s.wAction w with
  | 0 => s1.msix (s.wPart w) (s.wTarget w)
  | 1 =>
    if s.qFree (s.wTarget w) = 0 then
      (s1.setFld (Reg.halWatch w) 20 1 1).halErr 5 w (some (s.wPart w))
    else (s1.noteRead 0xB0 (some (s.wPart w)) (s.wAddrA w) 64).enqueue (s.wTarget w) (s1.rdMem (s.wAddrA w) 64)
  | 2 => { s1 with hal := { s1.hal with copies := s1.hal.copies ++ [w] } }
  | _ => s1

/-- Every watch of a list whose wait is met fires, in order. -/
def State.fireMet (s : State) : List Nat → State
  | [] => s
  | w :: t => State.fireMet (if s.waitMet (s.wObject w) (s.wThreshold w) then s.fireWatch w else s) t

/-- A signal (R250): the value rises and saturates, and every watch that it meets fires in ascending number (R253). Object 0xFFFF and amount 0 change nothing. -/
def State.signal (s : State) (n amt : Nat) : State :=
  if n = noSync ∨ amt = 0 then s
  else
    let v := s.syncVal n + amt
    let s1 := (s.wr64 (Reg.halSyncValue n) (min v (2 ^ 64 - 1))).bump64 Reg.halOps 1
    let s2 := if 2 ^ 64 ≤ v then s1.halErr 1 n none else s1
    s2.fireMet (s2.armedOn n)

end Sys2Proof.Machine
end

