-- ==== Sys2Proof/Machine/Pools.lean ====
section
/-!
DEFINITION. Buffer pools: reservation, sharing, levels (R258 to R265).
-/
namespace Sys2Proof.Machine

/-- Pool in use (Table 11.3). -/
def State.pValid (s : State) (k : Nat) : Bool := s.bitAt (Reg.poolDesc k) 0
/-- Class S pool. -/
def State.pClassS (s : State) (k : Nat) : Bool := s.bitAt (Reg.poolDesc k) 2
/-- Pool of the safety island. -/
def State.pSafety (s : State) (k : Nat) : Bool := s.bitAt (Reg.poolDesc k) 3
/-- Owner partition. -/
def State.pOwner (s : State) (k : Nat) : Nat := s.fld (Reg.poolDesc k) 4 4
/-- Streams of lower priority are dropped under back-pressure. -/
def State.pProtected (s : State) (k : Nat) : Nat := s.fld (Reg.poolDesc k) 8 4
/-- Is class F partition `p` in the grant mask? -/
def State.pGrants (s : State) (k p : Nat) : Bool := s.bitAt (Reg.poolDesc k) (16 + p)
/-- Bytes of one buffer. -/
def State.pBufSize (s : State) (k : Nat) : Nat := s.rd (Reg.poolDesc k + 4)
/-- Base address. -/
def State.pBase (s : State) (k : Nat) : Nat := s.rd64 (Reg.poolDesc k + 8)
/-- First buffer descriptor. -/
def State.pFirst (s : State) (k : Nat) : Nat := s.fld (Reg.poolDesc k + 16) 0 20
/-- Buffers. -/
def State.pCount (s : State) (k : Nat) : Nat := s.fld (Reg.poolDesc k + 20) 0 21
/-- Threshold of level 0 notice, 1 back-pressure, 2 critical. -/
def State.pThr (s : State) (k lvl : Nat) : Nat := s.rd (Reg.poolDesc k + 24 + 4 * lvl)
/-- Hysteresis. -/
def State.pHyst (s : State) (k : Nat) : Nat := s.fld (Reg.poolDesc k + 36) 0 16
/-- MSI-X vector of the notice. -/
def State.pVector (s : State) (k : Nat) : Nat := s.fld (Reg.poolDesc k + 36) 16 16
/-- Buffers in use (POOL_STAT). -/
def State.pInUse (s : State) (k : Nat) : Nat := s.rd (Reg.poolStat k)
/-- Does the level hold (POOL_STAT)? -/
def State.pLevel (s : State) (k lvl : Nat) : Bool := s.bitAt (Reg.poolStat k + 4) lvl

/-- A class S pool or the safety island's. -/
def State.pStrict (s : State) (k : Nat) : Bool := s.pClassS k || s.pSafety k

/-- A buffer descriptor. -/
def State.buf (s : State) (i : Nat) : Buf := Tab.read (fun _ => {}) s.pool.bufs i

/-- A buffer descriptor replaced. -/
def State.setBuf (s : State) (i : Nat) (b : Buf) : State :=
  { s with pool := { s.pool with bufs := Tab.write (fun _ => {}) s.pool.bufs i b } }

/-- A handle: descriptor index in bits 19..0, pool in bits 27..20 (R260). -/
def mkHandle (pool idx : Nat) : Nat := idx + pool <<< 20
/-- The pool of a handle. -/
def hPool (h : Nat) : Nat := bits h 20 8
/-- The descriptor index of a handle. -/
def hIdx (h : Nat) : Nat := bits h 0 20

/-- The device address of a handle's buffer (R260). -/
def State.bufAddr (s : State) (h : Nat) : Nat := s.pBase (hPool h) + (hIdx h - s.pFirst (hPool h)) * s.pBufSize (hPool h)

/-- Does the handle name a buffer: pool valid, index inside it? -/
def State.handleOk (s : State) (h : Nat) : Bool :=
  let k := hPool h
  s.pValid k && decide (s.pFirst k ≤ hIdx h) && decide (hIdx h < s.pFirst k + s.pCount k) && decide (h < 2 ^ 28)

/-- The holder name of host software of a partition: subsystem 1 (R260). -/
def hostHolder (p : Nat) : Nat := p
/-- A holder name: subsystem number of Table 1.1 minus 1 in bits 7..4, unit in bits 3..0 (R260). -/
def holderName (subsys unit : Nat) : Nat := (subsys - 1) * 16 + unit

/-- An error event of the pool manager, with its capture in POOL_ERR_LOC while POOL_ERR reads 0 (Table 11.11). -/
def State.poolErr (s : State) (b holder handle code : Nat) (p : Option Nat) : State :=
  let s1 := if s.rd Reg.poolErr = 0 then s.wr Reg.poolErrLoc (bits handle 0 28 + b <<< 28) else s
  s1.raise { idx := 11, unit := holder, bit := b, part := p, aux := hPool handle, detail := code, addr := handle }

/-- A detected fault with cause POOL (R261, R263). -/
def State.poolFault (s : State) (tag : Nat) : State :=
  s.fault { cause := 0x0C, subsys := 11, unit := 0, part := some tag }

/-- Entry into level `lvl` (Table 11.6): the notice interrupts, the back-pressure count, s_critical. -/
def State.pEnter (s : State) (k lvl : Nat) : State :=
  let s1 := s.setFld (Reg.poolStat k + 4) lvl 1 1
  match lvl with
  | 0 => s1.msix (s.pOwner k) (s.pVector k)
  | 1 => s1.bump (Reg.poolStat k + 0x14) 1
  | _ => if s.pStrict k then s1.poolErr 7 0 (mkHandle k 0) 0 (some (s.pOwner k)) else s1

/-- One level after a change of in use: entered at its threshold, left below threshold − hyst; 0 disables it (R265). -/
def State.pSettle (s : State) (k lvl : Nat) : State :=
  let thr := s.pThr k lvl
  if thr = 0 then s.setFld (Reg.poolStat k + 4) lvl 1 0
  else if thr ≤ s.pInUse k then (if s.pLevel k lvl then s else s.pEnter k lvl)
  else if s.pInUse k + s.pHyst k < thr then s.setFld (Reg.poolStat k + 4) lvl 1 0
  else s

/-- All three levels settled. -/
def State.pLevels (s : State) (k : Nat) : State := ((s.pSettle k 0).pSettle k 1).pSettle k 2

/-- In use set, the peak kept, the levels settled (R265). -/
def State.pSetInUse (s : State) (k n : Nat) : State :=
  let s1 := s.wr (Reg.poolStat k) n
  let s2 := s1.wr (Reg.poolStat k + 8) (max n (s.rd (Reg.poolStat k + 8)))
  s2.pLevels k

/-- The lowest index from `i` on that a rising list of allocated indices does not hold. -/
def lowestGap : List Nat → Nat → Nat
  | [], i => i
  | j :: t, i => if j < i then lowestGap t i else if j = i then lowestGap t (i + 1) else i

/-- The lowest free buffer of a pool (which free buffer is taken is open: log entry 10). -/
def State.lowestFree (s : State) (k : Nat) : Option Nat :=
  let i := lowestGap ((s.pool.bufs.filter (fun e => e.2.allocated)).map (fun e => e.1)) (s.pFirst k)
  if i < s.pFirst k + s.pCount k then some i else none

/-- One buffer of pool `k` for a holder: holds 1, the requester both holder and last owner (R261). -/
def State.allocOne (s : State) (tag holder k : Nat) : Option (State × Nat) :=
  match s.lowestFree k with
  | none => none
  | some i =>
    let s1 := s.setBuf i { allocated := true, holders := [holder], lastOwner := holder, part := tag, allocTb := s.now }
    some (s1.pSetInUse k (s1.pInUse k + 1), mkHandle k i)

/-- `n` buffers of one pool, added to a list of handles. -/
def State.allocN (s : State) (tag holder k : Nat) : Nat → List Nat → Option (State × List Nat)
  | 0, acc => some (s, acc)
  | n + 1, acc =>
    match s.allocOne tag holder k with
    | none => none
    | some (s1, h) => State.allocN s1 tag holder k n (acc ++ [h])

/-- Every pair of a reservation in turn. -/
def State.allocAll (s : State) (tag holder : Nat) : List (Nat × Nat) → List Nat → Option (State × List Nat)
  | [], acc => some (s, acc)
  | (k, n) :: t, acc =>
    match s.allocN tag holder k n acc with
    | none => none
    | some (s1, acc1) => State.allocAll s1 tag holder t acc1

/-- May partition `tag` reserve from pool `k`: its owner, or class F in the grant mask (Table 11.3)? -/
def State.mayReserve (s : State) (tag k : Nat) : Bool :=
  s.pValid k && (decide (s.pOwner k = tag) || (s.pGrants k tag && !(s.pStrict k)))

/-- Does a reservation that waits since `t` or longer hold pool `k` closed to a newer one: an aged one does (R261)? -/
def agedBlocks (ws : List Waiting) (k t : Nat) : Bool :=
  ws.any (fun w => w.aged && decide (w.tb ≤ t) && w.pairs.any (fun p => p.1 = k))

/-- Can a reservation be granted now, whole: every pool open to it, no pool closed by an older aged reservation, no class F reservation in a pool at its critical level (R261, R265)? -/
def State.poolsOpen (s : State) (tag : Nat) (older : List Waiting) (pairs : List (Nat × Nat)) : Bool :=
  pairs.all (fun p =>
    s.mayReserve tag p.1 && !(s.pLevel p.1 2 && !(s.pStrict p.1)) && !(agedBlocks older p.1 s.now))

/-- A reservation granted whole or not at all (R261). -/
def State.tryReserve (s : State) (tag holder : Nat) (pairs : List (Nat × Nat)) : Option (State × List Nat) :=
  if s.poolsOpen tag s.pool.waiting pairs then (s.bump64 Reg.poolOps 1).allocAll tag holder pairs [] else none

/-- A class S reservation that cannot be granted: refused, counted, and a detected fault with cause POOL (R261). -/
def State.refuseS (s : State) (tag holder k : Nat) : State :=
  ((s.bump (Reg.poolStat k + 0x10) 1).poolErr 6 holder (mkHandle k 0) 0x17 (some tag)).poolFault tag

/-- A buffer returns to its pool. -/
def State.returnBuf (s : State) (h : Nat) : State :=
  let s1 := s.setBuf (hIdx h) {}
  s1.pSetInUse (hPool h) (s1.pInUse (hPool h) - 1)

/-- The POOL_ERR bit of an operation code (Table 11.5). -/
def opBit (code : Nat) : Nat :=
  match code with
  | 0x10 => 5 | 0x11 => 2 | 0x12 => 1 | 0x13 => 0 | 0x14 => 3 | 0x15 => 4 | 0x16 => 1 | 0x17 => 6 | _ => 5

/-- A refused operation changes nothing but the pool's count, the error bit and, in a class S or safety pool, a detected fault (R263, R264). -/
def State.opRefused (s : State) (tag holder h code : Nat) : State × Nat :=
  let s1 := (s.bump (Reg.poolStat (hPool h) + 0x10) 1).poolErr (opBit code) holder h code (some tag)
  (if s.pValid (hPool h) && s.pStrict (hPool h) then s1.poolFault tag else s1, code)

/-- Is the holder name host software (subsystem 1)? -/
def isHost (holder : Nat) : Bool := decide (holder < 16)

/-- The checks that every operation makes first, in the order of R264: BAD_HANDLE, FENCE. -/
def State.opPre (s : State) (holder h : Nat) : Option Nat :=
  if !(s.handleOk h) then some 0x10
  else if isHost holder && !(decide (s.pOwner (hPool h) = holder)) && !(s.pGrants (hPool h) holder) then some 0x18
  else none

/-- SHARE by a holder (R262 to R264): adds a holder and names the last owner. -/
def State.share (s : State) (tag holder h newHolder last : Nat) : State × Nat :=
  let s := s.bump64 Reg.poolOps 1
  let b := s.buf (hIdx h)
  let k := hPool h
  match s.opPre holder h with
  | some c => s.opRefused tag holder h c
  | none =>
    if b.freePending then s.opRefused tag holder h 0x16
    else if !(b.holders.contains holder) then s.opRefused tag holder h 0x11
    else if !(decide (last = newHolder) || b.holders.contains last) then s.opRefused tag holder h 0x12
    else if !(b.holders.contains newHolder) && decide (4 ≤ b.holders.length) then s.opRefused tag holder h 0x14
    else if (s.pStrict k && (!(decide (tag = s.pOwner k)) || (isHost newHolder && !(decide (newHolder = s.pOwner k)))))
        || (!(s.pStrict k) && ((!(decide (tag = s.pOwner k)) && !(s.pGrants k tag))
          || (isHost newHolder && !(decide (newHolder = s.pOwner k)) && !(s.pGrants k newHolder)))) then
      s.opRefused tag holder h 0x15
    else
      (s.setBuf (hIdx h) { b with
        holders := if b.holders.contains newHolder then b.holders else b.holders ++ [newHolder], lastOwner := last }, 0)

/-- DROP by a holder that is not the last owner; a pending buffer returns at its last drop (R262). -/
def State.drop (s : State) (tag holder h : Nat) : State × Nat :=
  let s := s.bump64 Reg.poolOps 1
  let b := s.buf (hIdx h)
  match s.opPre holder h with
  | some c => s.opRefused tag holder h c
  | none =>
    if !(b.holders.contains holder) then s.opRefused tag holder h 0x11
    else if decide (b.lastOwner = holder) && !b.freePending then s.opRefused tag holder h 0x12
    else
      let rest := b.holders.filter (fun x => decide (x ≠ holder))
      if b.freePending && rest.isEmpty then (s.returnBuf h, 0)
      else (s.setBuf (hIdx h) { b with holders := rest }, 0)

/-- FREE by the last owner: the buffer returns at once, or becomes free_pending while other holds remain (R262). -/
def State.free (s : State) (tag holder h : Nat) : State × Nat :=
  let s := s.bump64 Reg.poolOps 1
  let b := s.buf (hIdx h)
  match s.opPre holder h with
  | some c => s.opRefused tag holder h c
  | none =>
    if !b.allocated || b.freePending then s.opRefused tag holder h 0x13
    else if !(b.holders.contains holder) then s.opRefused tag holder h 0x11
    else if !(decide (b.lastOwner = holder)) then s.opRefused tag holder h 0x12
    else
      let rest := b.holders.filter (fun x => decide (x ≠ holder))
      if rest.isEmpty then (s.returnBuf h, 0)
      else (s.setBuf (hIdx h) { b with holders := rest, freePending := true }, 1)

/-- A device unit gives up its hold: FREE where it is last owner, else DROP. -/
def State.giveUp (s : State) (tag holder h : Nat) : State :=
  if (s.buf (hIdx h)).lastOwner = holder then (s.free tag holder h).1 else (s.drop tag holder h).1

/-- A device unit gives up a list of buffers. -/
def State.giveUpAll (s : State) (tag holder : Nat) : List Nat → State
  | [] => s
  | h :: t => State.giveUpAll (s.giveUp tag holder h) tag holder t

end Sys2Proof.Machine
end

