-- ==== Sys2Proof/Machine/Grants.lean ====
section
/-!
DEFINITION. Reading the grants of the structure image: partitions, windows, banks, streams (Tables 3.1, 13.1, 15.6 to 15.8).
-/
namespace Sys2Proof.Machine

/-- A field of the PARTITIONS item of `p` (Table 15.6): byte offset, first bit, length. -/
def State.partFld (s : State) (p byte lo len : Nat) : Nat :=
  bits (Tab.read (fun _ => 0) s.cfg.parts p).toNat (8 * byte + lo) len

/-- The notice ring of a partition (R299). -/
def State.noticeRing (s : State) (p : Nat) : Nat := s.partFld p 8 0 14

/-- A field of a stream table entry (Table 3.1). -/
def State.strmFld (s : State) (st byte lo len : Nat) : Nat :=
  bits (Tab.read (fun _ => 0) s.cfg.streams st).toNat (8 * byte + lo) len

/-- Entry in use. -/
def State.stValid (s : State) (st : Nat) : Bool := s.strmFld st 0 7 1 == 1
/-- Source: 0 CSI-2, 1 RTP, 2 CVF, 3 host. -/
def State.stSource (s : State) (st : Nat) : Nat := s.strmFld st 1 0 4
/-- Port: K or E index. -/
def State.stPort (s : State) (st : Nat) : Nat := s.strmFld st 1 4 4
/-- Format code. -/
def State.stFormat (s : State) (st : Nat) : Nat := s.strmFld st 3 0 8
/-- Width in pixels. -/
def State.stWidth (s : State) (st : Nat) : Nat := s.strmFld st 4 0 16
/-- Height in lines. -/
def State.stHeight (s : State) (st : Nat) : Nat := s.strmFld st 6 0 16
/-- Nominal frame period in ns. -/
def State.stPeriod (s : State) (st : Nat) : Nat := s.strmFld st 8 0 32
/-- Owner partition. -/
def State.stPart (s : State) (st : Nat) : Nat := s.strmFld st 12 0 4
/-- Class S stream. -/
def State.stClassS (s : State) (st : Nat) : Bool := s.strmFld st 12 4 1 == 1
/-- Priority 0 to 7. -/
def State.stPriority (s : State) (st : Nat) : Nat := s.strmFld st 12 5 3
/-- Decoder. -/
def State.stDecoder (s : State) (st : Nat) : Nat := s.strmFld st 13 0 2
/-- Front end. -/
def State.stFrontEnd (s : State) (st : Nat) : Nat := s.strmFld st 13 2 2
/-- Class S double decoding. -/
def State.stDual (s : State) (st : Nat) : Bool := s.strmFld st 13 4 1 == 1

/-- The running state of a stream in ING_STRM_STATE: 0 idle, 1 running, 2 stopping. -/
def State.stRun (s : State) (st : Nat) : Nat := s.fld (Reg.ingStrmState st) 0 2

end Sys2Proof.Machine
end

