-- ==== Sys2Proof/Machine/Collector.lean ====
section
/-!
DEFINITION. The result collector: staging, service, frames, rings (R239 to R248, R299, R314).
-/
namespace Sys2Proof.Machine

/-- Record types of Table 10.6 that the reserve of a ring admits (R245): FRAME_CLOSE, FRAME_WITHDRAWN, GUARANTEE_NOTICE, STREAM_STATUS. -/
def reserveType (typ : Nat) : Bool := typ == 0x0F || typ == 0x0B || typ == 0x0A || typ == 0x09

/-- The units of a record: 40 body bytes in unit 0, 56 in each later one (R239). -/
def Rec.units (r : Rec) : Nat := 1 + ceilDiv (r.body.len - 40) 56

/-- The record header (Table 10.4). -/
def Rec.header (r : Rec) : Nat :=
  r.typ % 256 + (r.kind % 256) <<< 8
  + (match r.stream with | some st => st % 128 | none => 128) <<< 16
  + (b2n r.concealed + 2 * b2n r.concealedRef + 4 * b2n r.roiStale + 8 * b2n r.classS + 16 * b2n r.unframed
      + 32 * b2n r.frameDone + 64 * b2n r.poisoned) <<< 24
  + (r.counter % 2 ^ 32) <<< 32 + (r.ts % 2 ^ 64) <<< 64

/-- Bytes 0 to 55 of unit `i` (R239). -/
def Rec.unit (r : Rec) (i : Nat) : Nat :=
  if i = 0 then r.header + (r.body.le 0 (min 40 r.body.len)) <<< 128
  else r.body.le (40 + 56 * (i - 1)) 56

/-- The trailer of a unit (Table 10.5). -/
def trailer (phase unit units seq dropped : Nat) : Nat :=
  phase + unit <<< 1 + (units - 1) <<< 5 + (seq % 65536) <<< 16 + (min dropped 65535) <<< 32

/-- What a ring remembers. -/
def State.ring (s : State) (q : Nat) : RingState := Tab.read (fun _ => {}) s.col.rings q

/-- What a ring remembers, replaced. -/
def State.setRing (s : State) (q : Nat) (r : RingState) : State :=
  { s with col := { s.col with rings := Tab.write (fun _ => {}) s.col.rings q r } }

/-- The open frames of a stream, oldest first. -/
def State.frames (s : State) (st : Nat) : List OpenFrame := Tab.read (fun _ => []) s.col.frames st

/-- The open frames of a stream replaced. -/
def State.setFrames (s : State) (st : Nat) (fs : List OpenFrame) : State :=
  { s with col := { s.col with frames := Tab.write (fun _ => []) s.col.frames st fs } }

/-- The last closes of a stream, newest first. -/
def State.closes (s : State) (st : Nat) : List ClosedFrame := Tab.read (fun _ => []) s.col.closed st

/-- A close kept among the last 16 (COL_STRM_RESULT, COL_STRM_LAST_CLOSE). -/
def State.noteClose (s : State) (st : Nat) (c : ClosedFrame) : State :=
  let s1 := { s with col := { s.col with closed := Tab.write (fun _ => []) s.col.closed st ((c :: s.closes st).take 16) } }
  s1.wr (Reg.colStrmLastClose st) c.counter

/-- The ring that a record goes to: its stream's ring, or the notice ring of its partition (R244, R299). -/
def State.recRing (s : State) (r : Rec) : Nat :=
  match r.ringOf, r.stream with
  | some q, _ => q
  | none, some st => s.fld (Reg.colStrmCfg st) 0 14
  | none, none => s.noticeRing r.part

/-- Marks that close a frame: 0 is taken as 1 (Table 10.12). -/
def State.marksNeeded (s : State) (st : Nat) : Nat := max 1 (s.fld (Reg.colStrmCfg st) 14 4)

/-- Room for a record of `u` units and a type, by the ring's policy (R245); a function that may not issue DMA leaves its records waiting (R332). -/
def State.ringRoom (s : State) (q u typ : Nat) : Bool :=
  let res := if s.qOverflow q = 2 && !(reserveType typ) then s.qReserve q else 0
  s.canIssue (s.qOwner q) && decide (u + res ≤ s.qFree q)

/-- Bytes written to a ring: host memory of its owner, or, with the queue's memory bit, device memory within the owner's grants (Table 11.2, R294). Bytes of a unit's body carry relaxed ordering where the queue and the function enable it, trailers never (R246, R341). -/
def State.ringWr (s : State) (q a n v : Nat) (body : Bool) : State :=
  let p := s.qOwner q
  if !(s.bitAt (Reg.halQueueDesc q) 20) then s.hostPost p a n v (body && s.bitAt (Reg.halQueueDesc q) 3 && s.relaxed p)
  else if !(s.mapped a) then s.memEvent a 5 6 (holderName 10 0) (some p)
  else if s.granted2 p a n then s.wrMemBy (holderName 10 0) (some p) a n v
  else s.fenceHit p (match memKind a with | some 2 => 1 | some 1 => 2 | _ => 0) a

/-- The trailers of the first `n` units of a record at entry `p`, from the last unit down to unit 0 (R246). -/
def State.writeTrailers (s : State) (q p : Nat) (r : Rec) (seq dropped : Nat) : Nat → State
  | 0 => s
  | i + 1 =>
    let phase := 1 - ((p + i) / s.qSize q) % 2
    State.writeTrailers (s.ringWr q (s.qEntry q (p + i) + 56) 8 (trailer phase i r.units seq dropped) false) q p r seq dropped i

/-- The units of a record written at the ring's producer index: bytes 0 to 55 of every unit first, then the trailers (R246). -/
def State.writeUnits (s : State) (q : Nat) (r : Rec) (seq dropped : Nat) : State :=
  let p := s.qP q
  (loopUp r.units (fun i x => x.ringWr q (x.qEntry q (p + i)) 56 (r.unit i) true) s).writeTrailers q p r seq dropped r.units

/-- One record written to its ring (R246): units, then P, the shadow producer index, the threshold interrupt. -/
def State.writeRec (s : State) (q : Nat) (r : Rec) : State :=
  let g := s.ring q
  let u := r.units
  let s1 := s.writeUnits q r g.seq g.dropped
  let s2 := s1.setRing q { g with seq := (g.seq + 1) % 65536, dropped := 0, dropping := false }
  let p' := (s.qP q + u) % 2 ^ 32
  ((s2.qWriteShadow q p').qSetP q p').bump64 Reg.colUnits u

/-- A record discarded: the ring's and the stream's and partition's counts (Table 10.5, R245). -/
def State.dropRec (s : State) (q : Nat) (r : Rec) : State :=
  let g := s.ring q
  let s1 := s.setRing q { g with dropped := satAdd 16 g.dropped 1 }
  let s2 := (s1.bump (Reg.colPartDrops r.part) 1).bump (Reg.halQueueDesc q + 40) 1
  match r.stream with
  | some st => s2.bump (Reg.colStrmDrops st) 1
  | none => s2

/-- A record for a disabled ring, discarded and counted (Table 10.10). -/
def State.dropOff (s : State) (r : Rec) : State :=
  let s1 := s.bump (Reg.colPartDrops r.part) 1
  match r.stream with
  | some st => s1.bump (Reg.colStrmDrops st) 1
  | none => s1

/-- An event of the collector (Table 19.1: unit port, detail queue). -/
def State.colErr (s : State) (b port q : Nat) (p : Option Nat) : State :=
  s.raise { idx := 10, unit := port, bit := b, part := p, detail := q }

/-! ### Frames -/

/-- The running check value over the units of a record, in ring order (R244). -/
def recCrc (r : Rec) (c : Nat) : Nat := loopUp r.units (fun i x => crc32cRun x (r.unit i) 56) c

/-- The FRAME_CLOSE record of a frame with its cause; the crc goes on over bytes 4 to 15 of its header (R244). -/
def closeRec (r0 : Rec) (f : OpenFrame) (cause now : Nat) : Rec :=
  let r := { r0 with typ := 0x0F, kind := 0, counter := f.counter, ts := f.ts }
  let crc := crc32cEnd (crc32cRun f.crc (r.header >>> 32) 12)
  { r with body := { len := 24, val := f.recs % 2 ^ 32 + crc <<< 32 + (f.marks % 256) <<< 64 + cause <<< 72
      + (now % 2 ^ 64) <<< 96 + (f.drops % 2 ^ 32) <<< 160 } }

/-- A blank record of a stream: partition and class from its entry. -/
def State.blankRec (s : State) (st : Nat) : Rec :=
  { typ := 0, stream := some st, part := s.stPart st, classS := s.stClassS st }

/-- A list of records handed over, the last with frame_done; a mark where there is none (R240). -/
def State.handFrame (s : State) (st port counter ts : Nat) : List Rec → State
  | [] => s.handRec port { s.blankRec st with typ := 0, counter := counter, ts := ts, frameDone := true }
  | [r] => s.handRec port { r with frameDone := true }
  | r :: t => State.handFrame (s.handRec port r) st port counter ts t

/-- The ring's vector after a close, when irq_on_close is 1 (R246). -/
def State.closeIrq (s : State) (st q : Nat) : State := if s.bitAt (Reg.colStrmCfg st) 22 then s.qInterrupt q else s

/-- FAULT_N released. -/
def State.releaseFaultN (s : State) : State :=
  let s1 := { s with pins := { s.pins with faultN := false } }
  (s1.setFld Reg.safStatus 1 1 0).setFld Reg.mgmtStatus 6 1 0

/-- FAULT_N released once every partition of the release set has met its condition, no exception of R318 holds it, and no fault reaction is pending. -/
def State.settleFaultN (s : State) : State :=
  if s.pins.faultN && !s.saf.hold && !s.bitAt Reg.safStatus 2 && !s.bitAt Reg.safStatus 3 && !s.bitAt Reg.safStatus 7
      && s.saf.reports.isEmpty && !s.pins.porLow && decide (s.fld Reg.mgmtStatus 0 4 = 5)
      && decide (s.saf.releaseSet &&& ~~~ s.saf.releaseMet = 0) then
    let s1 := { s with saf := { s.saf with releaseSet := 0, releaseMet := 0 } }
    s1.releaseFaultN
  else s

/-- A verified FRAME_CLOSE, or a stop by host software: its partition has met R318's condition, and FAULT_N falls where it was the last. -/
def State.noteVerified (s : State) (p : Nat) : State :=
  if s.saf.releaseSet.getLsbD p && s.processing p then
    ({ s with saf := { s.saf with releaseMet := s.saf.releaseMet ||| BitVec.ofNat 16 (2 ^ p) } }).settleFaultN
  else s

/-- The oldest open frame of a stream closed by FRAME_CLOSE (R244). A ring that is disabled, or has no room, loses the record as any other. -/
def State.closeFrame (s : State) (st port cause : Nat) : State :=
  match s.frames st with
  | [] => s
  | f :: rest =>
    let r := closeRec (s.blankRec st) f cause s.now
    let q := s.recRing r
    let s1 := (s.setFrames st rest).noteClose st { counter := f.counter, cause := cause, withdrawn := false }
    let s2 := if cause = 1 || cause = 2 then s1.colErr (if cause = 1 then 2 else 3) port q (some r.part) else s1
    if q = noQueue || !(s.qEnabled q) then (s2.dropOff r).colErr 4 port q (some r.part)
    else if !(s.ringRoom q 1 0x0F) then s2.dropRec q r
    else
      let s3 := ((s2.writeRec q r).bump (Reg.colStrmRecords st) 1).closeIrq st q
      if r.classS && decide (cause = 0) then s3.noteVerified r.part else s3

/-- Is the oldest open frame complete: its marks, and for class S the release (R244)? -/
def State.frameComplete (s : State) (st : Nat) (f : OpenFrame) : Bool :=
  decide (s.marksNeeded st ≤ f.marks) && (!(s.stClassS st) || f.released) && !f.withdrawn

/-- The open frame with a counter changed. -/
def State.updFrame (s : State) (st counter : Nat) (f : OpenFrame → OpenFrame) : State :=
  s.setFrames st ((s.frames st).map (fun x => if x.counter = counter then f x else x))

/-- Does a ring discard a record that it has no room for (R245)? `over`: the record's own stall bound has passed. With STALL_FAULT it never does. -/
def State.ringDiscards (s : State) (q : Nat) (overdue : Bool) : Bool :=
  s.qOverflow q == 1 || (s.qOverflow q != 2 && ((s.ring q).dropping || overdue))

/-- Can the close of a stream's oldest frame be written or must it be lost now: its ring has room, is disabled, or discards (R245)? -/
def State.closable (s : State) (st : Nat) : Bool :=
  let q := s.fld (Reg.colStrmCfg st) 0 14
  !(s.qEnabled q) || s.ringRoom q 1 0x0F || s.ringDiscards q (match s.frames st with | f :: _ => f.overdue | [] => false)

/-- Frames of a stream close in counter order while the oldest is complete (R244); `n` bounds the four open frames. -/
def State.closeComplete (s : State) (st port : Nat) : Nat → State
  | 0 => s
  | n + 1 =>
    match s.frames st with
    | f :: _ =>
      if s.frameComplete st f && f.closing.isNone then
        if s.closable st then State.closeComplete (s.closeFrame st port 0) st port n
        else s.updFrame st f.counter (fun x => { x with closing := some (0, port) })
      else s
    | [] => s

/-- Is a frame of this counter open? -/
def State.frameOpen (s : State) (st counter : Nat) : Bool := (s.frames st).any (fun x => x.counter = counter)

/-- Has the frame been withdrawn and closed (R312: its late records are discarded)? -/
def State.frameGone (s : State) (st counter : Nat) : Bool :=
  (s.closes st).any (fun x => x.withdrawn && decide (x.counter = counter))

/-- A delivered record joins its open frame: count, check value, marks. -/
def joinFrame (r : Rec) (f : OpenFrame) : OpenFrame :=
  { f with recs := f.recs + 1, crc := recCrc r f.crc, marks := f.marks + b2n r.frameDone }

/-- A FRAME_WITHDRAWN delivered closes the frame in place of FRAME_CLOSE; its body tells the records withdrawn (R244, R312). -/
def State.deliverWithdrawn (s : State) (st q : Nat) (r : Rec) : State :=
  let n := ((s.frames st).find? (fun x => x.counter = r.counter)).elim 0 (fun x => x.recs)
  let r1 := { r with body := r.body.putLe 2 2 (min n 65535), unframed := !(s.frameOpen st r.counter) }
  let s1 := s.setFrames st ((s.frames st).filter (fun x => decide (x.counter ≠ r.counter)))
  let s2 := ((s1.writeRec q r1).bump (Reg.colStrmRecords st) 1)
  (s2.noteClose st { counter := r.counter, cause := 0, withdrawn := true }).closeIrq st q

/-- A FRAME_OPEN delivered opens its frame; opening a fifth closes the oldest first, with cause 2; a counter that is open already opens nothing (R244). -/
def State.deliverOpen (s : State) (st q port : Nat) (r : Rec) : State :=
  if s.frameOpen st r.counter then (s.writeRec q { r with unframed := true }).bump (Reg.colStrmRecords st) 1
  else
    let s1 := if 4 ≤ (s.frames st).length then s.closeFrame st port 2 else s
    let f : OpenFrame := joinFrame r { counter := r.counter, ts := r.ts }
    ((s1.setFrames st (s1.frames st ++ [f])).writeRec q r).bump (Reg.colStrmRecords st) 1

/-- Does a record stand outside every frame: SNIPPET_CHUNK always, others whose counter matches no open frame (R244, R105)? -/
def State.recUnframed (s : State) (st : Nat) (r : Rec) : Bool := r.typ == 0x08 || !(s.frameOpen st r.counter)

/-- One record of a stream delivered to its ring and joined to its frame. -/
def State.deliverStream (s : State) (st q port : Nat) (r : Rec) : State :=
  if r.typ = 0 then
    (s.updFrame st r.counter (fun f => { f with marks := f.marks + b2n r.frameDone })).closeComplete st port 4
  else if r.typ = 0x0B then s.deliverWithdrawn st q r
  else if r.typ = 0x01 then (s.deliverOpen st q port r).closeComplete st port 4
  else if s.recUnframed st r then (s.writeRec q { r with unframed := true }).bump (Reg.colStrmRecords st) 1
  else (((s.writeRec q r).bump (Reg.colStrmRecords st) 1).updFrame st r.counter (joinFrame r)).closeComplete st port 4

/-- A record that is dropped still counts its mark and its loss in its frame. -/
def State.dropInFrame (s : State) (port : Nat) (r : Rec) : State :=
  match r.stream with
  | some st => (s.updFrame st r.counter (fun f => { f with drops := f.drops + 1, marks := f.marks + b2n r.frameDone })).closeComplete st port 4
  | none => s

/-! ### Service -/

/-- What a turn can do with the record at the head of a class. -/
inductive Service where
  | deliver | disabled | gone | full | discard | wait
  deriving DecidableEq, Repr

/-- What service finds at a head record (R245, R312). -/
def State.serviceOf (s : State) (r : Rec) : Service :=
  let q := s.recRing r
  let gone := match r.stream with | some st => s.frameGone st r.counter && r.typ != 0x0B | none => false
  if gone then .gone
  else if r.typ = 0 then .deliver
  else if q = noQueue || !(s.qEnabled q) then .disabled
  else
    let extra := match r.stream with
      | some st => if r.typ = 0x01 && decide (4 ≤ (s.frames st).length) then 1 else 0
      | none => 0
    if s.ringRoom q (r.units + extra) r.typ then .deliver
    else if s.ringDiscards q r.overdue then .discard
    else .full

/-- Is a head record ready (R242: a record whose ring lacks room is not)? -/
def Service.ready (v : Service) : Bool := v != .full && v != .wait

/-- The first staged record of a class at a port, in order. -/
def headOf (l : List Rec) (cls : Bool) : Option Rec := l.find? (fun r => r.classS == cls)

/-- The staged records without the first of a class. -/
def dropHead : List Rec → Bool → List Rec
  | [], _ => []
  | r :: t, cls => if r.classS == cls then t else r :: dropHead t cls

/-- The staged records of a port. -/
def State.staged (s : State) (port : Nat) : List Rec := (s.col.stage[port]?).getD []

/-- Which class a port delivers now: the class S head unless 4 in a row have been served while a class F record waited (R242). -/
def State.pickClass (s : State) (port : Nat) : Option Bool :=
  let l := s.staged port
  let ready : Option Rec → Bool := fun o => match o with | some r => (s.serviceOf r).ready | none => false
  let sr : Bool := ready (headOf l true)
  let fr : Bool := ready (headOf l false)
  let row := (s.col.sRow[port]?).getD 0
  if sr && !(decide (4 ≤ row) && fr) then some true
  else if fr then some false
  else none

/-- The streams whose frame has a close pending at a port, oldest stream first. -/
def State.pendingCloses (s : State) (port : Nat) : List Nat :=
  (s.col.frames.filter (fun e =>
    match e.2 with
    | f :: _ => match f.closing with | some (_, p) => decide (p = port) && s.closable e.1 | none => false
    | [] => false)).map (fun e => e.1)

/-- A port has a record ready, or a close to write. -/
def State.portReady (s : State) (port : Nat) : Bool := !(s.pendingCloses port).isEmpty || (s.pickClass port).isSome

/-- The next port in round robin from `p` on with work (R242). -/
def State.nextPort (s : State) (p : Nat) : Nat → Option Nat
  | 0 => none
  | n + 1 => if s.portReady (p % 18) then some (p % 18) else State.nextPort s (p + 1) n

/-- Used staging slots shown in COL_PORT_STATUS. -/
def State.showPort (s : State) (port : Nat) : State :=
  let l := s.staged port
  let ns := (l.filter (fun r => r.classS)).length
  s.wr (Reg.colPortStatus port) (ns + (l.length - ns) <<< 3)

/-- The first staged record of a class changed. -/
def updHead (f : Rec → Rec) : List Rec → Bool → List Rec
  | [], _ => []
  | r :: t, cls => if r.classS == cls then f r :: t else r :: updHead f t cls

/-- The head record of a class at a port changed. -/
def State.updStaged (s : State) (port : Nat) (cls : Bool) (f : Rec → Rec) : State :=
  { s with col := { s.col with stage := updAt s.col.stage port (fun l => updHead f l cls) } }

/-- A wait for room in a ring begins: counted (Table 11.2), and the ring's own wait where it is the first (COL_PART_STALL_NS). -/
def State.beginStall (s : State) (q : Nat) : State :=
  (if (s.ring q).stall.isNone then s.setRing q { s.ring q with stall := some s.now } else s).bump (Reg.halQueueDesc q + 44) 1

/-- Stalls begun: a head record whose ring lacks room starts its wait (R245). -/
def State.noteStall (s : State) (port : Nat) (cls : Bool) : State :=
  match headOf (s.staged port) cls with
  | none => s
  | some r =>
    if s.serviceOf r = .full && r.waits.isNone then
      (s.updStaged port cls (fun x => { x with waits := some s.now })).beginStall (s.recRing r)
    else s

/-- The streams whose oldest frame has a close that its ring has no room for. -/
def State.blockedCloses (s : State) : List Nat :=
  (s.col.frames.filter (fun e => match e.2 with | f :: _ => f.closing.isSome && !(s.closable e.1) | [] => false)).map (fun e => e.1)

/-- A stream's oldest frame changed. -/
def State.updOldest (s : State) (st : Nat) (g : OpenFrame → OpenFrame) : State :=
  match s.frames st with
  | f :: t => s.setFrames st (g f :: t)
  | [] => s

/-- A wait begun for a close that its ring has no room for. -/
def State.noteCloseStall (s : State) (st : Nat) : State :=
  match s.frames st with
  | f :: _ => if f.waits.isNone then (s.updOldest st (fun f => { f with waits := some s.now })).beginStall (s.fld (Reg.colStrmCfg st) 0 14) else s
  | [] => s

/-- Does a record at the head of service, or a close, still lack room in a ring? -/
def State.ringWaits (s : State) (q : Nat) : Bool :=
  (List.range 18).any (fun p => [true, false].any (fun cls => match headOf (s.staged p) cls with
    | some r => decide (s.recRing r = q) && s.serviceOf r == .full
    | none => false))
    || s.blockedCloses.any (fun st => decide (s.fld (Reg.colStrmCfg st) 0 14 = q))

/-- A ring for which nothing waits any more: its wait is added to COL_PART_STALL_NS. -/
def State.settleStall (s : State) (q : Nat) : State :=
  match (s.ring q).stall with
  | none => s
  | some t => if s.ringWaits q then s else (s.setRing q { s.ring q with stall := none }).bump64 (Reg.colPartStallNs (s.qOwner q)) (s.now - t)

/-- The stalls of every port's heads, and of closes, noted, and those of rings that have room again ended. -/
def State.noteStalls (s : State) : State :=
  let s1 := loopUp 18 (fun p x => (x.noteStall p true).noteStall p false) s
  let s2 := s1.blockedCloses.foldl (fun x st => x.noteCloseStall st) s1
  s2.col.rings.foldl (fun x e => x.settleStall e.1) s2

/-- One record taken from a port and served: delivered, or discarded for a withdrawn frame, a disabled ring or a full one. -/
def State.serveRec (s : State) (port : Nat) (cls : Bool) (r : Rec) : State :=
  let q := s.recRing r
  let row := (s.col.sRow[port]?).getD 0
  let s1 := { s with col := { s.col with
    stage := updAt s.col.stage port (fun l => dropHead l cls),
    sRow := updAt s.col.sRow port (fun _ => if cls && (headOf (s.staged port) false).isSome then row + 1 else 0) } }
  let s2 := (s1.wr (Reg.colPortWaitMax port) (max (s.rd (Reg.colPortWaitMax port)) (min (s.now - r.staged) (2 ^ 32 - 1)))).showPort port
  match s.serviceOf r with
  | .deliver =>
    match r.stream with
    | some st => s2.deliverStream st q port r
    | none => if r.typ = 0 then s2 else s2.writeRec q r
  | .gone => s2.bump (Reg.safPartWithdrawn r.part) 1
  | .disabled => ((s2.dropOff r).colErr 4 port q (some r.part)).dropInFrame port r
  | .discard => ((s2.dropRec q r).colErr 0 port q (some r.part)).dropInFrame port r
  | _ => s2

/-- COLLECTOR_TURN (R242): the next port in round robin with a record ready delivers one whole record; a close that no producer completes is written in the turn of its port (R244). -/
def State.collectorTurn (s0 : State) : State :=
  let s := s0.noteStalls
  match s.nextPort s.col.rr 18 with
  | none => s
  | some port =>
    let s1 := { s with col := { s.col with rr := (port + 1) % 18 } }
    match s1.pendingCloses port with
    | st :: _ =>
      match s1.frames st with
      | f :: _ => (s1.closeFrame st port (f.closing.elim 0 (fun c => c.1))).closeComplete st port 4
      | [] => s1
    | [] =>
      match s1.pickClass port with
      | none => s1
      | some cls =>
        match headOf (s1.staged port) cls with
        | none => s1
        | some r => s1.serveRec port cls r

/-- RECORD_STAGE (R241): the first ready record of a port whose staging class has room enters it (4 class S slots, 12 class F); a full class makes its producer wait. -/
def State.stageRecord (s : State) (port : Nat) : State :=
  let l := s.staged port
  let room := fun (cls : Bool) => decide ((l.filter (fun r => r.classS == cls)).length < (if cls then 4 else 12))
  let ready := (s.col.queue[port]?).getD []
  let pick := if room true && (headOf ready true).isSome && !((match ready with | r :: _ => !r.classS | [] => true) && room false) then some true
    else if room false && (headOf ready false).isSome then some false
    else if room true && (headOf ready true).isSome then some true
    else none
  match pick with
  | none => s
  | some cls =>
    match headOf ready cls with
    | none => s
    | some r =>
      ({ s with col := { s.col with
        queue := updAt s.col.queue port (fun q => dropHead q cls),
        stage := updAt s.col.stage port (fun q => q ++ [{ r with staged := s.now }]) } }).showPort port

/-! ### Withdrawal, release, timeouts -/

/-- A class S frame withdrawn by the safety island (R312, R319): it can no longer be released, and FRAME_WITHDRAWN goes to port 15. -/
def State.withdraw (s : State) (st counter cause subsys unit : Nat) : State :=
  if (s.frames st).any (fun x => decide (x.counter = counter) && x.withdrawn) || s.frameGone st counter then s
  else
    let s1 := s.updFrame st counter (fun f => { f with withdrawn := true, closing := none })
    let ts := ((s.frames st).find? (fun x => x.counter = counter)).elim s.now (fun x => x.ts)
    let body : Blob := { len := 8, val := cause + subsys <<< 8 + (unit % 2 ^ 32) <<< 32 }
    let r := { s.blankRec st with typ := 0x0B, counter := counter, ts := ts, body := body }
    (s1.handRec 15 r).bump Reg.safWithdrawnCnt 1

/-- Every open frame of a stream withdrawn with one cause. -/
def State.withdrawOpen (s : State) (st cause subsys unit : Nat) : List OpenFrame → State
  | [] => s
  | f :: t => State.withdrawOpen (s.withdraw st f.counter cause subsys unit) st cause subsys unit t

/-- A close that no producer completes, to be written in the next turn of the stream's ingress port: 16 for S64 to S95, 17 for the rest (R244). -/
def State.closeLater (s : State) (st counter cause : Nat) : State :=
  s.updFrame st counter (fun f => if f.closing.isSome || f.withdrawn then f else { f with closing := some (cause, if 64 ≤ st then 16 else 17) })

/-- Every open frame of a stream to be closed with one cause. -/
def State.closeAllLater (s : State) (st cause : Nat) : List OpenFrame → State
  | [] => s
  | f :: t => State.closeAllLater (s.closeLater st f.counter cause) st cause t

/-- FRAME_RELEASE (R244, R314): the oldest open class S frame with its marks complete is released when the shadow crc agrees; a mismatch is a detected fault with cause COLLECTOR. No frame is released while a fault is on its way or the safe state holds (R320). -/
def State.frameRelease (s : State) (st : Nat) (agree : Bool) : State :=
  if !(s.stClassS st) || !(s.saf.reports.isEmpty) || s.bitAt Reg.safStatus 2 then s
  else
    match (s.frames st).find? (fun f => decide (s.marksNeeded st ≤ f.marks) && !f.released && !f.withdrawn) with
    | none => s
    | some f =>
      if agree then s.updFrame st f.counter (fun x => { x with released := true, closing := some (0, 15) })
      else
        let s1 := s.raise { idx := 14, unit := 0, bit := 15, part := some (s.stPart st), detail := 0x09 }
        s1.fault { cause := 0x09, subsys := 10, unit := 0, part := some (s.stPart st), stream := some st }

/-- FRAME_CLOSE_TIMEOUT (R244): the oldest open frame that has passed its timestamp plus close_limit periods. -/
def State.closeTimeout (s : State) (st : Nat) : State :=
  let lim := let l := s.fld (Reg.colStrmCfg st) 18 4; if l = 0 then 4 else l
  match (s.frames st).find? (fun f => f.closing.isNone && !f.withdrawn && !(s.frameComplete st f)) with
  | none => s
  | some f =>
    if s.now ≤ f.ts + lim * s.stPeriod st then s
    else if s.stClassS st then
      let s1 := s.colErr 2 (if 64 ≤ st then 16 else 17) (s.fld (Reg.colStrmCfg st) 0 14) (some (s.stPart st))
      (s1.withdraw st f.counter 6 10 0).fault { cause := 0x09, subsys := 10, unit := 0, part := some (s.stPart st), stream := some st }
    else s.closeLater st f.counter 1

/-- Has a wait that began at `w` passed the stall bound of ring `q`? -/
def State.stallPast (s : State) (q : Nat) (w : Option Nat) : Bool :=
  match w with | some t => decide (t + s.qStallUs q * 1000 ≤ s.now) | none => false

/-- The head records, by port and class, whose wait for ring `q` passes the stall bound now. -/
def State.staleHeads (s : State) (q : Nat) : List (Nat × Bool) :=
  ((List.range 18).flatMap (fun p => [(p, true), (p, false)])).filter (fun e => match headOf (s.staged e.1) e.2 with
    | some r => decide (s.recRing r = q) && s.serviceOf r == .full && !r.overdue && s.stallPast q r.waits
    | none => false)

/-- The streams whose blocked close passes the stall bound of ring `q` now. -/
def State.staleCloses (s : State) (q : Nat) : List Nat :=
  s.blockedCloses.filter (fun st => decide (s.fld (Reg.colStrmCfg st) 0 14 = q) && (match s.frames st with
    | f :: _ => !f.overdue && s.stallPast q f.waits
    | [] => false))

/-- RING_STALL_TIMEOUT (R245): records, or closes, have waited for room beyond the stall bound: a detected fault with STALL_FAULT; else they are discarded, and so is each later record while the ring stays full. -/
def State.stallTimeout (s : State) (q : Nat) : State :=
  let heads := s.staleHeads q
  let closes := s.staleCloses q
  if heads.isEmpty && closes.isEmpty then s
  else
    let s1 := heads.foldl (fun (x : State) e => x.updStaged e.1 e.2 (fun r => { r with overdue := true })) s
    let s2 := closes.foldl (fun (x : State) st => x.updOldest st (fun f => { f with overdue := true })) s1
    if s.qOverflow q = 2 then
      (s2.colErr 1 0 q (some (s.qOwner q))).fault { cause := 0x09, subsys := 10, unit := 0, part := some (s.qOwner q) }
    else s2.setRing q { s2.ring q with dropping := true }

/-- COL_STRM_QUERY written: COL_STRM_RESULT for that counter (Table 10.12). -/
def State.queryFrame (s : State) (st v : Nat) : State :=
  let last := s.rd (Reg.colStrmLastClose st)
  let newer := decide (0 < (v + 2 ^ 32 - last) % 2 ^ 32) && decide ((v + 2 ^ 32 - last) % 2 ^ 32 < 2 ^ 31)
  let res :=
    if s.frameOpen st v || (s.closes st).isEmpty || newer then 0
    else match (s.closes st).find? (fun c => c.counter = v) with
      | some c => if c.withdrawn then 2 + c.cause <<< 2 else 1 + c.cause <<< 2
      | none => 3
  (s.wr (Reg.colStrmQuery st) v).wr (Reg.colStrmResult st) res

end Sys2Proof.Machine
end

