-- ==== Sys2Proof/Machine/SafBase.lean ====
section
/-!
DEFINITION. FAULT_N, records of the safety island, and the compute each partition is promised and granted (R299, R304, R305, R318, R328).
-/
namespace Sys2Proof.Machine

/-- FAULT_N asserted: pin, SAF_STATUS.fault, MGMT_STATUS.fault, and its TB where it was not asserted (R318, Table 13.12). -/
def State.assertFaultN (s : State) : State :=
  let s0 := if s.bitAt Reg.safStatus 1 then s else s.wr64 Reg.safFaultNTb s.now
  let s1 := { s0 with pins := { s0.pins with faultN := true } }
  (s1.setFld Reg.safStatus 1 1 1).setFld Reg.mgmtStatus 6 1 1

/-- A detected fault recorded: the count, and the cause and its TB where SAF_STATUS.fault reads 0 (Table 13.12). -/
def State.recordFault (s : State) (r : FaultReport) : State :=
  let s1 := s.bump Reg.safFaultCnt 1
  if s.bitAt Reg.safStatus 1 then s1
  else (s1.wr Reg.safFaultCause (r.cause + (r.subsys % 256) <<< 8 + (r.unit % 256) <<< 16)).wr64 Reg.safFaultTb r.tb

/-- The class S partitions that process now (SAF_STATUS.s_running). -/
def State.sRunning (s : State) : Nat := s.fld Reg.safStatus 16 16

/-- Has partition `p` a running stream? -/
def State.hasRunning (s : State) (p : Nat) : Bool :=
  s.cfg.streams.any (fun e => decide (s.stPart e.1 = p) && decide (s.stRun e.1 = 1))

/-- The class S partitions processing with a running stream join the release set, and all of the set must meet R318's condition anew. -/
def State.joinReleaseSet (s : State) : State :=
  let m := loopUp 16 (fun p a => if s.sRunning.testBit p && s.hasRunning p then a ||| BitVec.ofNat 16 (2 ^ p) else a) (0 : BitVec 16)
  { s with saf := { s.saf with releaseSet := s.saf.releaseSet ||| m, releaseMet := 0 } }

/-- A safety STREAM_STATUS record (Table 13.10) to the notice ring of a partition, through port 15. -/
def State.safRecord (s : State) (p kind cause unit target value counter : Nat) (stream : Option Nat) : State :=
  let v := kind + cause <<< 8 + unit <<< 16 + target <<< 24 + (value % 2 ^ 32) <<< 32 + (counter % 2 ^ 32) <<< 64
    + (match stream with | some st => st | none => 0xFF) <<< 96
  let body : Blob := { len := 40, val := v }
  s.handRec 15 { typ := 0x09, kind := kind, part := p, classS := s.classS p, ts := s.now, body := body }

/-- A safety record to every class S partition's notice ring. -/
def State.safRecordAll (s : State) (kind cause unit target value : Nat) : State :=
  loopUp 16 (fun p x => if x.classS p then x.safRecord p kind cause unit target value 0 none else x) s

/-! ### Compute promised and granted -/

/-- The owner of slot `i` of core `c` now; 0xFF unowned (R221). -/
def State.slotOwner (s : State) (c i : Nat) : Nat := Tab.read (fun _ => 0xFF) s.pln.slots (20 * c + i)

/-- The owner that the CORES section gives slot `i` of core `c` (Table 15.7). -/
def State.slotGranted (s : State) (c i : Nat) : Nat :=
  if (Tab.find s.cfg.cores c).isSome then bits (Tab.read (fun _ => 0) s.cfg.cores c).toNat (8 * (4 + i)) 8 else 0xFF

/-- Slots that a partition owns on a core, by a slot function. -/
def countSlots (owner : Nat → Nat) (p : Nat) : Nat := loopUp 20 (fun i n => if owner i = p then n + 1 else n) 0

/-- Arrays of a core by fuse (TC_CAP.fused_en). -/
def State.fusedEn (s : State) (c : Nat) : Nat := s.fld (Reg.tcCap c) 0 4

/-- The state of array `a` of core `c` in TC_ARRAY_STATE: 0 fused off, 1 off, 2 on, 3 changing. -/
def State.arrayState (s : State) (c a : Nat) : Nat := s.fld (Reg.tcArrayState c) (2 * a) 2

/-- The arrays of a core that are on, as a mask. -/
def State.arraysOn (s : State) (c : Nat) : Nat :=
  loopUp 4 (fun a m => if s.arrayState c a = 2 then m + 2 ^ a else m) 0

/-- Reserved compute of a partition in MMAC/s at W4 and guaranteed minimum: 126,976 per slot and array (R305: 4,096 × 0.62 Gbeat/s ÷ 20). -/
def State.reserved (s : State) (p : Nat) : Nat :=
  loopUp 8 (fun c n => n + countSlots (s.slotGranted c) p * popCount 4 (s.fusedEn c) * 126976) 0

/-- Compute that the slots held now and the arrays on give a partition, below 0.62 Gbeat/s in proportion to the reef ceiling. -/
def State.onCompute (s : State) (p : Nat) : Nat :=
  let full := loopUp 8 (fun c n => n + countSlots (s.slotOwner c) p * popCount 4 (s.arraysOn c) * 126976) 0
  match s.pwt.ceiling with
  | some c => if c < 620 then full * c / 620 else full
  | none => full

/-- The declared rank (Table 15.6). -/
def State.rank (s : State) (p : Nat) : Nat := s.partFld p 1 0 8

/-- The class F partitions that the image defines. -/
def State.fParts (s : State) : List Nat :=
  (s.cfg.parts.map (fun e => e.1)).filter (fun p => !(s.classS p))

/-- Reserved compute of every class F partition of a rank. -/
def State.rankReserved (s : State) (r : Nat) : Nat :=
  (s.fParts.filter (fun p => decide (s.rank p = r))).foldl (fun n p => n + s.reserved p) 0

/-- What level 3 must withdraw: a twentieth of the total class F reservation per step (Table 2.7). -/
def State.toWithdraw (s : State) : Nat :=
  s.pwt.withdrawn * (loopUp 16 (fun r n => n + s.rankReserved r) 0) / 20

/-- The cut of rank `r`: the lowest ranks first, a rank whole before the next (R304). -/
def State.rankCut (s : State) (r : Nat) : Nat :=
  let below := loopUp r (fun x n => n + s.rankReserved x) 0
  min (s.toWithdraw - below) (s.rankReserved r)

/-- The compute that level 3 leaves a class F partition: cut by the same fraction as its rank (R304); none while the critical threshold holds (Table 2.9). -/
def State.computeShare (s : State) (p : Nat) : Nat :=
  let g := s.rankReserved (s.rank p)
  if s.pwt.thermCrit then 0 else if g = 0 then s.reserved p else s.reserved p * (g - s.rankCut (s.rank p)) / g

/-- The compute granted to a class F partition: its share, and never above what its slots and arrays give. -/
def State.granted (s : State) (p : Nat) : Nat := min (s.computeShare p) (s.onCompute p)

/-- The compute of a partition's slots up to slot `i` of core `c`, cores in ascending order. -/
def State.computeUpTo (s : State) (p c i : Nat) : Nat :=
  loopUp (c + 1) (fun k n => n + countSlots (fun j => if k < c ∨ j ≤ i then s.slotOwner k j else 0xFF) p * popCount 4 (s.fusedEn k) * 126976) 0

/-- Is slot `i` of core `c` withdrawn from its class F owner (Table 2.7 level 3, Table 2.9)? A partition keeps its first slots, as far as its share reaches; nobody of class F takes a withdrawn slot (log entry 94). -/
def State.slotWithdrawn (s : State) (c i : Nat) : Bool :=
  let p := s.slotOwner c i
  decide (p < 16) && !(s.classS p) && (s.pwt.thermCrit || (decide (0 < s.pwt.withdrawn) && decide (s.computeShare p < s.computeUpTo p c i)))

/-- A GUARANTEE_NOTICE record (Table 10.6) for compute. -/
def State.noticeRec (s : State) (p kind phase res gr : Nat) : State :=
  let v := p + 0 <<< 8 + s.rank p <<< 16 + phase <<< 24 + (res % 2 ^ 32) <<< 32 + (gr % 2 ^ 32) <<< 64
  let body : Blob := { len := 12, val := v }
  s.handRec 15 { typ := 0x0A, kind := kind, part := p, ts := s.now, body := body }

/-- The last notice of a partition for compute, replaced. -/
def State.setNotice (s : State) (p : Nat) (n : Option Notice) : State :=
  { s with pwt := { s.pwt with notices := Tab.write (fun _ => none) s.pwt.notices p n } }

/-- The three points at which R305 sends a notice: begins, changes by 5 % or in cause at most once per 10 ms, ends. -/
def State.notify (s : State) (p kind : Nat) : State :=
  let res := s.reserved p
  let gr := s.granted p
  let low := b2n (decide (gr < res))
  let s1 := (s.setFld Reg.pwtReefState (16 + p) 1 low).setFld (Reg.safPart p) 6 1 low
  match Tab.read (fun _ => none) s.pwt.notices p with
  | none => if gr < res then (s1.noticeRec p kind 0 res gr).setNotice p (some ⟨gr, kind, s.now⟩) else s1
  | some n =>
    if res ≤ gr then (s1.noticeRec p n.kind 2 res gr).setNotice p none
    else if (res ≤ 20 * (max gr n.granted - min gr n.granted) ∧ gr ≠ n.granted ∨ kind ≠ n.kind) ∧ n.tb + 10000000 ≤ s.now then
      (s1.noticeRec p kind 1 res gr).setNotice p (some ⟨gr, kind, s.now⟩)
    else s1

/-- Compute that the slots held now would give a partition with every fused array on. -/
def State.slotCompute (s : State) (p : Nat) : Nat :=
  loopUp 8 (fun c n => n + countSlots (s.slotOwner c) p * popCount 4 (s.fusedEn c) * 126976) 0

/-- The kind of a partition's notice: the cause of reefing or gating where that cuts it, else 4 for slots lost in a takeover (R305). -/
def State.noticeKind (s : State) (p kind : Nat) : Nat :=
  if s.granted p < min (s.reserved p) (s.slotCompute p) then
    (if kind ≠ 0 then kind else if s.pwt.thermCrit then 2 else ((Tab.read (fun _ => none) s.pwt.notices p).map (fun n => n.kind)).getD 2)
  else 4

/-- Notices to every class F partition, for a cause of reefing, 0 for none. -/
def State.notifyAll (s : State) (kind : Nat) : State := s.fParts.foldl (fun x p => x.notify p (x.noticeKind p kind)) s

/-- Has a partition lost slots that the CORES section gives it? -/
def State.lostSlots (s : State) (p : Nat) : Bool :=
  (List.range 8).any (fun c => decide (countSlots (s.slotOwner c) p < countSlots (s.slotGranted c) p))

/-- Notices after a takeover: kind 4 to the class F partitions that lost slots (R309). -/
def State.notifyLost (s : State) : State :=
  s.fParts.foldl (fun x p => if x.lostSlots p then x.notify p 4 else x) s

end Sys2Proof.Machine
end

