-- ==== Sys2Proof/Machine/TimeBase.lean ====
section
/-!
DEFINITION. The time base (R43 to R47): the REFCLK cycle, voting, rate and slew, PPS.
-/
namespace Sys2Proof.Machine

/-- All three copies moved to a value. -/
def State.setTb (s : State) (v : BitVec 96) : State := { s with tb := { s.tb with c0 := v, c1 := v, c2 := v } }

/-- The rate correction of TB_ADJ_RATE per 40 ns cycle in 2^-32 ns, rounded to nearest (R45: 40 × ppb × 10^-9 ns). -/
def rateTerm (ppb : Int) : Int := (2 * (40 * ppb * 4294967296) + 1000000000).fdiv 2000000000

/-- The slew term of one cycle in 2^-32 ns: 40 ns × slew_ppm × 10^-6 (R45). -/
def slewTerm (ppm : Nat) : Nat := (2 * (40 * ppm * 4294967296) + 1000000) / 2000000

/-- The slew still to absorb, signed ns (TB_SLEW_REMAIN). -/
def State.slewRemain (s : State) : Int := sint 32 (s.rd Reg.tbSlewRemain)

/-- The increment in force (R45): 40 ns, the rate correction, and the slew term while slew remains. -/
def State.tbIncrement (s : State) : Int :=
  let base := 0x2800000000 + rateTerm (sint 32 (s.rd Reg.tbAdjRate))
  let sl : Int := slewTerm (s.fld Reg.tbCtrl 0 10)
  if 0 < s.slewRemain then base + sl else if s.slewRemain < 0 then base - sl else base

/-- TB_INCR and TB_STATUS follow the rate and the slew. -/
def State.showTb (s : State) : State :=
  (s.wr64 Reg.tbIncr (ofSint 40 s.tbIncrement)).setFld Reg.tbStatus 0 1 (b2n (decide (s.slewRemain ≠ 0)))

/-- One slew step absorbed: whole ns leave TB_SLEW_REMAIN, the fraction is kept. -/
def State.absorbSlew (s : State) : State :=
  if s.slewRemain = 0 then s
  else
    let f := s.tb.slewFrac + slewTerm (s.fld Reg.tbCtrl 0 10)
    let whole : Int := (f / 2 ^ 32 : Nat)
    let r := s.slewRemain
    let r' := if 0 < r then (if r ≤ whole then 0 else r - whole) else (if -r ≤ whole then 0 else r + whole)
    let s1 := { s with tb := { s.tb with slewFrac := if r' = 0 then 0 else f % 2 ^ 32 } }
    (s1.wr Reg.tbSlewRemain (ofSint 32 r')).showTb

/-- One REFCLK cycle (R43): each copy takes the voted value plus the increment; while REFCLK is lost TB holds. Step does this on an empty queue (log entry 1). -/
def State.tick (s : State) : State :=
  if s.tb.held || s.pins.porLow || !s.pins.aonUp then s
  else
    let v := s.tb.vote + BitVec.ofInt 96 s.tbIncrement
    (s.setTb v).absorbSlew.setFld Reg.tbStatus 2 1 1

/-- An event of the time base (Table 19.1: unit time-base copy, or 0xFF). -/
def State.tbErr (s : State) (b unit : Nat) : State := s.raise { idx := 15, unit := unit, bit := b }

/-- TB_COPY_DISAGREE (R43): the copy is reloaded from the other two and counted. -/
def State.tbCopyDisagree (s : State) (k : Nat) : State :=
  let other := if k = 0 then s.tb.c1 else s.tb.c0
  ((s.setTb other).bump Reg.tbResyncCnt 1).tbErr 0 k

/-- A detected fault with cause TIME_BASE (R43). -/
def State.tbFault (s : State) (b : Nat) : State :=
  (s.tbErr b 0xFF).fault { cause := 0x10, subsys := 15, unit := 0xFF }

/-- TB_NO_MAJORITY (R43). -/
def State.tbNoMajority (s : State) : State := s.tbFault 1

/-- REFCLK_LOSS (R43): TB holds its value, until power is removed (log entry 82); its reaction is that of a lost majority. -/
def State.refclkLoss (s : State) : State :=
  ({ s with tb := { s.tb with held := true } }.setFld Reg.tbStatus 2 1 0).tbFault 2

/-- A refused write changes nothing and sets TB_ERR.adj_refused (R45). -/
def State.adjRefused (s : State) : State := s.tbErr 3 0xFF

/-- TB_ADJ_RATE written (R45): −200,000 to +200,000 ppb. -/
def State.writeAdjRate (s : State) (v : Nat) : State :=
  if sint 32 v < -200000 ∨ 200000 < sint 32 v then s.adjRefused else (s.wr Reg.tbAdjRate v).showTb

/-- An offset added to the remaining slew: −1,000,000 to +1,000,000 ns both for the offset and the sum (R45). -/
def State.addSlew (s : State) (d : Int) : State :=
  let sum := s.slewRemain + d
  if d < -1000000 ∨ 1000000 < d ∨ sum < -1000000 ∨ 1000000 < sum then s.adjRefused
  else (s.wr Reg.tbSlewRemain (ofSint 32 sum)).showTb

/-- PPS mode: 0b11 acts as 0b00 (Table 2.11). -/
def State.ppsMode (s : State) : Nat := s.fld Reg.tbCtrl 12 2

/-- TB_ADJ_OFFSET written (R45); refused in PPS mode 0b10 (R46). -/
def State.writeAdjOffset (s : State) (v : Nat) : State :=
  if s.ppsMode = 2 then s.adjRefused else s.addSlew (sint 32 v)

/-- Is any stream running or stopping, or any partition processing? -/
def State.anyActive (s : State) : Bool :=
  s.cfg.streams.any (fun e => decide (s.stRun e.1 ≠ 0)) || decide (s.fld Reg.mgmtFuncState 16 16 ≠ 0)

/-- TB_SET written (R45): forward only, with no stream active and no partition running. -/
def State.writeTbSet (s : State) (v : Nat) : State :=
  if s.anyActive || decide (v < s.now) then s.adjRefused else s.setTb (BitVec.ofNat 96 (v * 2 ^ 32))

/-- TB_SLEW_COMPLETE (R45): with TB_SLEW_REMAIN at 0 the slew term ends. While slew remains, which only cycles of REFCLK absorb, nothing changes (log entry 82). -/
def State.slewComplete (s : State) : State :=
  if s.slewRemain ≠ 0 then s else { s with tb := { s.tb with slewFrac := 0 } }.showTb

/-- The distance of a capture from the nearest whole second of TB, wrapped to ±500 ms (R46). -/
def ppsDistance (t : Nat) : Int :=
  let m := t % 1000000000
  if m < 500000000 then (m : Int) else (m : Int) - 1000000000

/-- TIME_PPS_EDGE (R46). TB_PPS_COUNT holds 0xFFFF_FFFF (log entry 92). -/
def State.timePps (s : State) : State :=
  if s.ppsMode = 1 ∨ s.ppsMode = 2 then
    let s1 := (s.wr64 Reg.tbPpsCapture s.now).bump Reg.tbPpsCount 1
    let s2 := s1.setFld Reg.tbStatus 1 1 1
    if s.ppsMode = 2 then
      let d := ppsDistance s.now
      if d < -1000000 ∨ 1000000 < d then s2.tbErr 4 0xFF else s2.addSlew (-d)
    else s2
  else s

/-- TB_CTRL written: slew_ppm reads back clamped to 100–1,000 (Table 2.11). -/
def State.writeTbCtrl (s : State) (v : Nat) : State :=
  (s.wr Reg.tbCtrl (clampNat 100 1000 (bits v 0 10) + bits v 12 2 <<< 12)).showTb

end Sys2Proof.Machine
end

