-- ==== Sys2Proof/Machine/Power.lean ====
section
/-!
DEFINITION. Tell-tales, the fusee loop, AVSBus, power domains, the power cap, reefing and temperature (R22 to R42).
-/
namespace Sys2Proof.Machine

/-- An event of PWT (Table 19.1: unit rail or 0xFF, aux island or sensor). -/
def State.pwtErr (s : State) (b unit aux : Nat) : State := s.raise { idx := 16, unit := unit, bit := b, aux := aux }

/-! ### Tell-tales (R26) -/

/-- Two tell-tales differ by more than 15 % of the faster (log entry 11). -/
def telltaleSplit (a b : Nat) : Bool := decide (15 * max a b < 100 * (max a b - min a b))

/-- One island's tell-tales read: the slower is the reading; a split is an error event. -/
def State.readIsland (s : State) (i a b : Nat) : State :=
  let s1 := s.wr (Reg.pwtTtRate i) (min a b % 65536)
  if telltaleSplit a b then s1.pwtErr 0 (if i < 32 then 0 else 1) i else s1

/-- The islands from `i` on read in turn. -/
def State.readIslands (s : State) (i : Nat) : List (Nat × Nat) → State
  | [] => s
  | (a, b) :: t => State.readIslands (s.readIsland i a b) (i + 1) t

/-- The slowest reading of the islands `[lo, hi)`; an island that gives no reading (0: its domain is off) does not count. -/
def State.slowest (s : State) (lo hi : Nat) : Option Nat :=
  loopUp (hi - lo) (fun k acc =>
    let r := s.fld (Reg.pwtTtRate (lo + k)) 0 16
    if r = 0 then acc else match acc with | none => some r | some x => some (min x r)) none

/-- TELLTALE_READ (R26): the 102 self-timed islands. -/
def State.telltaleRead (s : State) (rs : List (Nat × Nat)) : State :=
  let s1 := s.readIslands 0 (rs.take 102)
  s1.wr Reg.pwtBeatNow ((s1.slowest 0 32).getD 0)

/-! ### The fusee loop (R27, R28) -/

/-- A rail of the fusee loop. -/
def State.rail (s : State) (k : Nat) : Rail := if k = 0 then s.pwt.arrayRail else s.pwt.logicRail

/-- A rail replaced. -/
def State.setRail (s : State) (k : Nat) (r : Rail) : State :=
  if k = 0 then { s with pwt := { s.pwt with arrayRail := r } } else { s with pwt := { s.pwt with logicRail := r } }

/-- The setpoint register of a rail. -/
def railReg (k : Nat) : Nat := if k = 0 then Reg.pwtVddArray else Reg.pwtVddLogic

/-- Is the rail's link frozen (R31; PWT_STATUS bits 3 and 4)? -/
def State.frozen (s : State) (k : Nat) : Bool := s.bitAt Reg.pwtStatus (3 + k)

/-- A new setpoint, sent over the rail's AVSBus link. -/
def State.setRailMv (s : State) (k mv : Nat) : State := (s.wr (railReg k) mv).emit (.avs k mv)

/-- A rail at its regulator's default of 0.80 V, by the reset-to-default-voltage command (R29, R30). -/
def State.defaultRail (s : State) (k : Nat) : State := (s.wr (railReg k) 800).emit (.avsDefault k)

/-- The fusee loop starts (R380): each link's VOUT transition rate is written, and PWT_STATUS.loop_run set (R29). -/
def State.startLoop (s : State) : State := ((s.emit (.avsRate 0)).emit (.avsRate 1)).setFld Reg.pwtStatus 0 1 1

/-- v_min: 0.75 V while a class S partition is active, else 0.60 V and 0.65 V (R27). -/
def State.vMin (s : State) (k : Nat) : Nat := if s.sActive then 750 else if k = 0 then 600 else 650

/-- beat_needed: the planner's figure, at least 0.62 Gbeat/s while class S is active, under the reef ceiling (R27, R39). -/
def State.beatNeeded (s : State) : Nat :=
  let b := if s.sActive then max s.pwt.beatNeeded 620 else s.pwt.beatNeeded
  match s.pwt.ceiling with
  | some c => if s.sActive then max 620 (min b c) else min b c
  | none => b

/-- The needed speed of a rail before its margin: Mbeat/s, or 0.1 % of at least 69.0 % (R27). -/
def State.needed (s : State) (k : Nat) : Nat := if k = 0 then s.beatNeeded else max s.pwt.logicNeeded 690

/-- 100 × the target of a rail: needed × (100 + margin pct). -/
def State.target100 (s : State) (k : Nat) : Nat := s.needed k * (100 + s.fld Reg.pwtMargin 0 5)

/-- One rail of the loop (R27): 5 mV up below target, 5 mV down after 1 ms above 1.03 of it and none within 1 ms of an upward step; at 0.90 V with the target unmet the status says so (R28). -/
def State.loopRail (s : State) (k : Nat) : State :=
  if s.frozen k then s
  else
    match s.slowest (if k = 0 then 0 else 32) (if k = 0 then 32 else 102) with
    | none => s
    | some slow =>
      let v := s.rd (railReg k)
      let r := s.rail k
      let below := decide (slow * 100 < s.target100 k)
      let above := decide (s.target100 k * 103 < slow * 10000)
      let since := if above then some (r.aboveSince.getD s.now) else none
      let s0 := (s.setRail k { r with aboveSince := since }).setFld Reg.pwtStatus (1 + k) 1 (b2n (below && decide (900 ≤ v)))
      if v < s.vMin k || (below && decide (v < 900)) then
        (s0.setRail k { r with aboveSince := none, lastUp := some s.now }).setRailMv k (min 900 (v + 5))
      else
        let long := match since with | some t => decide (t + 1000000 ≤ s.now) | none => false
        let quiet := match r.lastUp with | some t => decide (t + 1000000 ≤ s.now) | none => true
        if long && quiet && decide (s.vMin k < v) then s0.setRailMv k (v - 5) else s0

/-- FUSEE_LOOP_TICK (R27): with the planner's figure for the present schedule; the loop acts while PWT_STATUS.loop_run is 1 and no thermal shutdown has commanded the rails down (R42). -/
def State.fuseeTick (s : State) (planner : Nat) : State :=
  let s1 := { s with pwt := { s.pwt with beatNeeded := planner } }
  let s2 := s1.wr Reg.pwtBeatTarget (s1.target100 0 / 100)
  if s2.bitAt Reg.pwtStatus 0 && !s.pwt.shutdown then (s2.loopRail 0).loopRail 1 else s2

/-- A class S partition becomes active: the floor holds, and a rail below 0.75 V is raised to it (R27). -/
def State.raiseFloor (s : State) : State :=
  let s1 := s.setFld Reg.pwtStatus 5 1 1
  let up := fun (x : State) (k : Nat) => if x.rd (railReg k) < 750 && !(x.frozen k) then (x.setRail k { x.rail k with aboveSince := none, lastUp := some x.now }).setRailMv k 750 else x
  up (up s1 0) 1

/-! ### AVSBus (R31, R37) -/

/-- The setpoint frozen: PWT_STATUS.avs0_frozen or avs1_frozen (R31). -/
def State.freeze (s : State) (k : Nat) : State :=
  (s.setRail k { s.rail k with retryDue := none, goodReads := 0 }).setFld Reg.pwtStatus (3 + k) 1 1

/-- AVS_FRAME_FAILURE (R31): a single retry falls due after 20 µs. -/
def State.avsFailure (s : State) (k : Nat) : State :=
  match (s.rail k).retryDue with
  | some _ => s
  | none => s.setRail k { s.rail k with retryDue := some (s.now + 20000) }

/-- AVS_RETRY (R31): a second failure freezes the setpoint with PWT_ERR.avs_comm. -/
def State.avsRetry (s : State) (k : Nat) (ok : Bool) : State :=
  match (s.rail k).retryDue with
  | none => s
  | some _ => if ok then s.setRail k { s.rail k with retryDue := none } else (s.freeze k).pwtErr 1 k 0

/-- AVS_STATUS_FAULT (R31): the setpoint freezes, and reefing goes on as if at the reef threshold. -/
def State.avsStatusFault (s : State) (k : Nat) : State :=
  let s1 := s.freeze k
  (s1.setRail k { s1.rail k with regFault := true }).pwtErr 2 k 0

/-- RAIL_DEVIATION (R31): the monitor reads the rail more than 25 mV from its setpoint for 100 µs. -/
def State.railDeviation (s : State) (k mv : Nat) : State :=
  let v := s.rd (railReg k)
  if max v mv - min v mv ≤ 25 then s
  else
    let s1 := s.pwtErr 3 k 0
    if s.sActive then s1.fault { cause := 0x11, subsys := 15, unit := k } else s1.freeze k

/-- RAIL_LOW (R31): below 0.70 V while a class S partition is active. -/
def State.railLow (s : State) (k mv : Nat) : State :=
  if s.sActive && decide (mv < 700) then (s.pwtErr 4 k 0).fault { cause := 0x11, subsys := 15, unit := k } else s

/-- AVS_FROZEN_STATUS_RETRY (R37): two good status reads in a row unfreeze the link. -/
def State.avsStatusRetry (s : State) (k : Nat) (ok : Bool) : State :=
  if !(s.frozen k) then s
  else if !ok then s.setRail k { s.rail k with goodReads := 0 }
  else if 1 ≤ (s.rail k).goodReads then
    (s.setRail k { s.rail k with goodReads := 0, regFault := false }).setFld Reg.pwtStatus (3 + k) 1 0
  else s.setRail k { s.rail k with goodReads := 1 }

/-! ### Power domains (R32 to R35) -/

/-- The state of a domain in PWT_PD_STATE: 0 off, 1 retention, 2 on, 3 changing. -/
def State.pdState (s : State) (d : Nat) : Nat := s.fld (Reg.pwtPdState (d / 16)) (2 * (d % 16)) 2

/-- The state of a domain set; an array's shows in TC_ARRAY_STATE as well. -/
def State.setPd (s : State) (d st : Nat) : State :=
  let s1 := s.setFld (Reg.pwtPdState (d / 16)) (2 * (d % 16)) 2 st
  if d < 32 then s1.setFld (Reg.tcArrayState (d / 4)) (2 * (d % 4)) 2 (if st = 2 then 2 else if st = 3 then 3 else 1) else s1

/-- Is a domain an array or the vector engine of a suspect pair, which stay off (R308)? -/
def State.suspectPd (s : State) (d : Nat) : Bool :=
  (decide (d < 32) && decide (s.fld Reg.safPairState (4 * (d / 8)) 2 = 3))
    || (decide (224 ≤ d) && decide (d < 232) && decide (s.fld Reg.safPairState (4 * ((d - 224) / 2)) 2 = 3))

/-- Is the domain a fused-off array or its accumulator slice (R34)? -/
def State.pdFused (s : State) (d : Nat) : Bool :=
  decide (d < 64) && !(s.fusedEn (d % 32 / 4)).testBit (d % 4)

/-- May the domain move from one state to another (Tables 2.4, 2.5: on to off and back, and for memories on to retention and back)? -/
def pdAllows (d now' next' : Nat) : Bool :=
  (now' == 2 && next' == 0) || (now' == 0 && next' == 2)
    || (decide (32 ≤ d) && decide (d < 224) && ((now' == 2 && next' == 1) || (now' == 1 && next' == 2)))

/-- The device addresses of a memory domain (Tables 2.4, 12.1): first and length; the rest hold no memory. -/
def pdRange (d : Nat) : Nat × Nat :=
  if d < 32 then (0, 0)
  else if d < 64 then (0x1020000000 + 0x1000000 * ((d - 32) / 4) + 0x40000 * ((d - 32) % 4), 0x40000)
  else if d < 192 then (0x1010000000 + 0x1000000 * ((d - 64) / 16) + 0x40000 * ((d - 64) % 16), 0x40000)
  else if d < 224 then (0x1000000000 + 0x80000 * (d - 192), 0x80000)
  else (0, 0)

/-- A memory range zero-filled with valid check bits (R33, R275). -/
def State.zeroFill (s : State) (r : Nat × Nat) : State :=
  { s with mem := Tab.clear s.mem r.1 (r.1 + r.2), ecc := Tab.clear s.ecc (r.1 / 8) ((r.1 + r.2) / 8) }

/-- A domain starts to change. -/
def State.startPd (s : State) (d st : Nat) : State :=
  let s1 := { s with pwt := { s.pwt with pdTarget := Tab.write (fun _ => (0, 0)) s.pwt.pdTarget d (st + 4, s.pdState d) } }
  s1.setPd d 3

/-- The target of a changing domain. -/
def State.pdGoal (s : State) (d : Nat) : Option Nat :=
  let t := Tab.read (fun _ => (0, 0)) s.pwt.pdTarget d
  if t.1 < 4 then none else some (t.1 - 4)

/-- A waiting switch-on of an array given up. -/
def State.unwait (s : State) (d : Nat) : State :=
  { s with pwt := { s.pwt with pdWait := s.pwt.pdWait.filter (fun x => decide (x ≠ d)) } }

/-- A domain that is on starts to switch off, and one on its way on turns back (Table 2.5). -/
def State.turnOff (s : State) (d : Nat) : State := if s.pdState d = 2 ∨ s.pdGoal d = some 2 then s.startPd d 0 else s

/-- Array switch-ons of the last 20 µs (R33). -/
def State.recentStarts (s : State) : List Nat := s.pwt.pdStarts.filter (fun t => decide (s.now < t + 20000))

/-- An array starts to switch on once it is off; at most 4 start within 20 µs, the others wait in domain order (R33). -/
def State.startArray (s : State) (d : Nat) : State :=
  if s.pdState d = 2 ∨ s.pdGoal d = some 2 then s.unwait d
  else if s.pdState d = 0 ∧ s.recentStarts.length < 4 then
    let s1 := { s with pwt := { s.pwt with
      pdStarts := s.recentStarts ++ [s.now],
      pdWait := s.pwt.pdWait.filter (fun x => decide (x ≠ d)) } }
    s1.startPd d 2
  else if s.pwt.pdWait.contains d then s
  else { s with pwt := { s.pwt with pdWait := (s.pwt.pdWait.filter (fun x => decide (x < d))) ++ [d] ++ (s.pwt.pdWait.filter (fun x => decide (d < x))) } }

/-- Waiting arrays start in domain order as far as the window allows. -/
def State.startWaiting (s : State) : List Nat → State
  | [] => s
  | d :: t => State.startWaiting (s.startArray d) t

/-- Is an array gated by reefing or heat (TC_ARRAY_STATE): it is to be on, and is kept off? -/
def State.arrayGated (s : State) (d : Nat) : Bool := decide (d < 32) && s.bitAt (Reg.tcArrayState (d / 4)) (8 + d % 4)

/-- The gated mark of an array, and the count in PWT_REEF_STATE. -/
def State.markGated (s : State) (d x : Nat) : State :=
  let s1 := s.setFld (Reg.tcArrayState (d / 4)) (8 + d % 4) 1 x
  s1.setFld Reg.pwtReefState 4 8 (loopUp 8 (fun c n => n + popCount 4 (s1.fld (Reg.tcArrayState c) 8 4)) 0)

/-- Are the arrays of a core gated (R39 level 2, Table 2.9 critical)? -/
def State.coreGated (s : State) (c : Nat) : Bool := s.pwt.thermCrit || s.pwt.gated.contains c

/-- POWER_DOMAIN_REQUEST (R34, R33): a fused-off array stays off; an array of a gated core that is not on is marked or unmarked as to be on when the gating ends; a move that Table 2.5 does not have changes nothing, and off ends a wait to switch on (log entry 92). -/
def State.pdRequest (s : State) (d st : Nat) : State :=
  let s0 := s.startWaiting s.pwt.pdWait
  if s0.pdFused d || s0.suspectPd d then s0
  else if d < 32 ∧ s0.coreGated (d / 4) = true ∧ s0.pdState d ≠ 2 then (if st = 1 then s0 else s0.markGated d (b2n (st == 2)))
  else if d < 32 ∧ st = 0 ∧ s0.pwt.pdWait.contains d = true then s0.unwait d
  else if !(pdAllows d (s0.pdState d) st) then s0
  else if d < 32 ∧ st = 2 then s0.startArray d
  else s0.startPd d st

/-- A domain's transition ends (R33): the domain takes its state; a memory switched on from off is zero-filled; an array that was gated on its way on goes off again. -/
def State.domainDone (s : State) (d : Nat) : State :=
  match s.pdGoal d with
  | none => s
  | some st =>
    let was := (Tab.read (fun _ => (0, 0)) s.pwt.pdTarget d).2
    let s1 := { s with pwt := { s.pwt with pdTarget := Tab.erase s.pwt.pdTarget d } }
    let s2 := if (st = 2 ∧ was = 0) ∨ st = 0 then s1.zeroFill (pdRange d) else s1
    let s3 := s2.setPd d st
    let s4 := if st = 2 ∧ s3.arrayGated d = true then s3.startPd d 0 else s3
    s4.startWaiting s4.pwt.pdWait

/-! ### Temperature (R41, R42, Table 2.9) -/

/-- The suffix is -E (MGMT_ID1). -/
def State.suffixE (s : State) : Bool := s.bitAt Reg.mgmtId1 16

/-- A threshold of Table 2.9 in 1/16 °C: 1 warn, 2 reef, 3 critical, 4 shutdown. -/
def State.thermThr (s : State) (l : Nat) : Int :=
  let q : Int := match l with | 1 => 115 | 2 => 120 | 3 => 128 | _ => 135
  16 * (if s.suffixE then q - 15 else q)

/-- A sensor's reading in 1/16 °C. -/
def State.temp (s : State) (i : Nat) : Int := sint 16 (s.fld (Reg.pwtTemp i) 0 16)

/-- Is the sensor marked failed? -/
def State.tempFailed (s : State) (i : Nat) : Bool := s.bitAt (Reg.pwtTemp i) 31

/-- The hottest sensor not marked failed: index and reading. -/
def State.hottest (s : State) : Option (Nat × Int) :=
  loopUp 12 (fun i acc =>
    if s.tempFailed i then acc
    else match acc with
      | none => some (i, s.temp i)
      | some (j, t) => if t < s.temp i then some (i, s.temp i) else some (j, t)) none

/-- An integer put in its place of a rising list. -/
def insertInt (x : Int) : List Int → List Int
  | [] => [x]
  | y :: t => if x ≤ y then x :: y :: t else y :: insertInt x t

/-- Twice the median of all 12 sensors. -/
def State.median2 (s : State) : Int :=
  let l := loopUp 12 (fun i a => insertInt (s.temp i) a) []
  (l[5]?).getD 0 + (l[6]?).getD 0

/-- One array gated: an array that is on starts to switch off, one on its way on or waiting is kept from it. -/
def State.gateArray (s : State) (d : Nat) : State :=
  if s.pdState d = 2 then (s.startPd d 0).markGated d 1
  else if s.pdGoal d = some 2 ∨ s.pwt.pdWait.contains d = true then (s.unwait d).markGated d 1
  else s

/-- A core's arrays gated off (R39 level 2, Table 2.9 critical); a tile in phase 3 keeps them to its boundary (R153). -/
def State.gateArrays (s : State) (c : Nat) : State := loopUp 4 (fun a x => x.gateArray (4 * c + a)) s

/-- The arrays of a core that were gated switch on again, within the limit of R33. -/
def State.ungateArrays (s : State) (c : Nat) : State :=
  loopUp 4 (fun a x => if x.arrayGated (4 * c + a) then (x.markGated (4 * c + a) 0).startArray (4 * c + a) else x) s

/-- A core of the table of cores. -/
def State.core (s : State) (c : Nat) : Core := Tab.read (fun _ => {}) s.cores c

/-- A core replaced. -/
def State.setCore (s : State) (c : Nat) (k : Core) : State := { s with cores := Tab.write (fun _ => {}) s.cores c k }

/-- Gate now, or at the tile boundary of a core whose arrays run beats (R39, R153); a tile that has drained is past it. -/
def State.gateAtBoundary (s : State) (c : Nat) : State :=
  if (s.core c).beats.elim false (fun t => !t.drained) then { s with pwt := { s.pwt with gatePend := s.pwt.gatePend ++ [c] } }
  else s.gateArrays c

/-- The tile boundary of a core: a gating that waited for it takes place (R39, R153). -/
def State.boundary (s : State) (c : Nat) : State :=
  if s.pwt.gatePend.contains c then
    { s with pwt := { s.pwt with gatePend := s.pwt.gatePend.filter (fun x => decide (x ≠ c)) } }.gateArrays c
  else s

/-- The critical threshold is entered without class S, or left 5 °C below reef (Table 2.9): gatings that still wait for a boundary then lapse, but those of reefing level 2. -/
def State.thermGate (s : State) (crit : Bool) : State :=
  let s1 := { s with pwt := { s.pwt with thermCrit := crit } }
  let s2 := if crit then loopUp 8 (fun c x => x.gateAtBoundary c) s1
    else
      let s3 := { s1 with pwt := { s1.pwt with gatePend := s1.pwt.gatePend.filter (fun c => s1.pwt.gated.contains c) } }
      loopUp 8 (fun c x => if x.pwt.gated.contains c then x else x.ungateArrays c) s3
  s2.notifyAll 2

/-- The error event of one threshold newly crossed: bits 7 warn, 8 reef, 9 critical. -/
def State.crossed (s : State) (from_ : Nat) (to_ : Nat) (sensor : Nat) : State :=
  let up := fun (x : State) (l : Nat) => if from_ < l && decide (l ≤ to_) then x.pwtErr (6 + l) 0xFF sensor else x
  up (up (up s 1) 2) 3

/-- The thresholds applied to the hottest valid sensor (R41). -/
def State.applyThermal (s : State) : State :=
  match s.hottest with
  | none => s
  | some (i, t) =>
    let lvl := if s.thermThr 3 < t then 3 else if s.thermThr 2 < t then 2 else if s.thermThr 1 < t then 1 else 0
    let s1 := (s.wr Reg.pwtTempMax (i + ofSint 16 t <<< 16)).crossed s.pwt.thermLevel lvl i
    let s2 := { s1 with pwt := { s1.pwt with thermLevel := lvl } }
    if lvl = 3 && decide (s.pwt.thermLevel < 3) then
      if s.sActive then s2.fault { cause := 0x12, subsys := 15, unit := i } else s2.thermGate true
    else if s.pwt.thermCrit && decide (t ≤ s.thermThr 2 - 80) then s2.thermGate false
    else s2

/-- The readings of sensors from `i` on; the failed mark stays. -/
def State.readTemps (s : State) (i : Nat) : List Nat → State
  | [] => s
  | t :: ts => State.readTemps (s.setFld (Reg.pwtTemp i) 0 16 t) (i + 1) ts

/-- TEMPERATURE_SENSOR_READ (R41): all 12 sensors. -/
def State.tempRead (s : State) (ts : List Nat) : State := (s.readTemps 0 (ts.take 12)).applyThermal

/-- SENSOR_FAIL (R41): a sensor more than 10 °C from the median for 1 ms. -/
def State.sensorFail (s : State) (i : Nat) : State :=
  let d := 2 * s.temp i - s.median2
  if s.tempFailed i || decide (-320 ≤ d ∧ d ≤ 320) then s
  else ((s.setFld (Reg.pwtTemp i) 31 1 1).pwtErr 6 0xFF i).applyThermal

/-- THERMAL_SHUTDOWN (R42): handshakes stop, the rails are commanded down, FAULT_N and THERMTRIP_N are asserted. -/
def State.thermalShutdown (s : State) : State :=
  if s.pwt.shutdown then s
  else
    let s1 := { s with
      pwt := { s.pwt with shutdown := true },
      saf := { s.saf with hold := true },
      pins := { s.pins with thermtripN := true } }
    let s2 := ((s1.setRailMv 0 600).setRailMv 1 650).pwtErr 10 0xFF 0
    (s2.recordFault { cause := 0x13, subsys := 15, unit := 0, tb := s.now }).assertFaultN

/-! ### The power cap and reefing (R36 to R40, R306) -/

/-- A rail's power now in mW, and the part of it that R37 estimates: measured mV × mA, or the frozen setpoint times the rail's maximum current. -/
def State.railPower (s : State) (k mv ma : Nat) : Nat × Nat :=
  if s.frozen k then
    let e := s.rd (railReg k) * (if k = 0 then 30 else 13)
    (e, e)
  else (mv * ma / 1000, 0)

/-- The sums of the samples held: totals and estimates. -/
def sampleSums : List (Nat × Nat) → Nat × Nat
  | [] => (0, 0)
  | (a, b) :: t => ((sampleSums t).1 + a, (sampleSums t).2 + b)

/-- PWT_REEF_STATE.level. -/
def State.reefLevel (s : State) : Nat := s.fld Reg.pwtReefState 0 2

/-- The bound of level 1: 0.62 Gbeat/s with class S active, else the rate at 0.60 V, 0.31 Gbeat/s (Tables 2.2, 2.7). -/
def State.ceilingFloor (s : State) : Nat := if s.sActive then 620 else 310

/-- Does a core hold a slot of a class S partition? -/
def State.coreServesS (s : State) (c : Nat) : Bool :=
  loopUp 20 (fun i b => b || (decide (s.slotOwner c i ≠ 0xFF) && s.classS (s.slotOwner c i))) false

/-- The lowest rank among the class F partitions that own slots of a core. -/
def State.coreRank (s : State) (c : Nat) : Nat :=
  loopUp 20 (fun i m => if s.slotOwner c i = 0xFF then m else min m (s.rank (s.slotOwner c i))) 16

/-- The next core to gate at level 2: it serves no class S slot and has arrays on; the lowest rank first. Equal ranks go by core number, and cores that no partition owns come last (log entry 92). -/
def State.coreToGate (s : State) : Option Nat :=
  loopUp 8 (fun c best =>
    if s.coreServesS c || decide (s.arraysOn c = 0) || s.pwt.gatePend.contains c then best
    else match best with
      | none => some c
      | some b => if s.coreRank c < s.coreRank b then some c else some b) none

/-- One step of level 2. -/
def State.gateCore (s : State) (c : Nat) : State :=
  ({ s with pwt := { s.pwt with gated := c :: s.pwt.gated } }).gateAtBoundary c

/-- The total class F compute reservation. -/
def State.fTotal (s : State) : Nat := loopUp 16 (fun r n => n + s.rankReserved r) 0

/-- One step of level 3; with no class F reservation left, class S keeps running above the cap and SAF_ERR.cap_over is set (R306). -/
def State.withdrawStep (s : State) (overCap : Bool) : State :=
  if s.pwt.withdrawn < 20 && decide (0 < s.fTotal) then { s with pwt := { s.pwt with withdrawn := s.pwt.withdrawn + 1 } }
  else if overCap then s.raise { idx := 14, unit := 0xFF, bit := 14 } else s

/-- One step of demand (R39). From level 1 with no core to gate, level 2 has reached its bound before its first step, and the device takes the first step of level 3 (log entry 92). -/
def State.reefDown (s : State) (overCap : Bool) : State :=
  let lvl := fun (x : State) (l : Nat) => x.setFld Reg.pwtReefState 0 2 l
  let third := fun (x : State) => (lvl x 3).withdrawStep overCap
  let second := fun (x : State) => match x.coreToGate with
    | some c => (lvl x 2).gateCore c
    | none => third x
  match s.reefLevel with
  | 0 => lvl { s with pwt := { s.pwt with ceiling := some s.beatNeeded } } 1
  | 1 =>
    let c := s.pwt.ceiling.getD s.beatNeeded
    if s.ceilingFloor < c then { s with pwt := { s.pwt with ceiling := some (max s.ceilingFloor (c - 20)) } } else second s
  | 2 => second s
  | _ => s.withdrawStep overCap

/-- The planner's figure without the ceiling. -/
def State.plannerFigure (s : State) : Nat := if s.sActive then max s.pwt.beatNeeded 620 else s.pwt.beatNeeded

/-- One step of margin (R39): the last core gated first; when the level has no step left to undo it moves down one level. -/
def State.reefUp (s : State) : State :=
  let lvl := fun (x : State) (l : Nat) => x.setFld Reg.pwtReefState 0 2 l
  match s.reefLevel with
  | 0 => s
  | 1 =>
    let c := s.pwt.ceiling.getD s.plannerFigure + 20
    if s.plannerFigure ≤ c then lvl { s with pwt := { s.pwt with ceiling := none } } 0
    else { s with pwt := { s.pwt with ceiling := some c } }
  | 2 => match s.pwt.gated with
    | c :: t => (({ s with pwt := { s.pwt with gated := t, gatePend := s.pwt.gatePend.filter (fun x => decide (x ≠ c)) } }).ungateArrays c)
    | [] => lvl s 1
  | _ => if 0 < s.pwt.withdrawn then { s with pwt := { s.pwt with withdrawn := s.pwt.withdrawn - 1 } } else lvl s 2

/-- The power sample of one evaluation: the rails and the fixed-rail allowance, with the part that R37 estimates (R36). -/
def State.powerSample (s : State) (mvA maA mvL maL : Nat) : Nat × Nat :=
  let a := s.railPower 0 mvA maA
  let l := s.railPower 1 mvL maL
  (a.1 + l.1 + s.pwt.fixedMw, a.2 + l.2)

/-- The last ten samples with a new one: the 1 ms average (R36). -/
def State.withSample (s : State) (p : Nat × Nat) : State :=
  { s with pwt := { s.pwt with samples := (p :: s.pwt.samples).take 10 } }

/-- The average of the samples held, and the same without what R37 estimates. With fewer than ten samples it is their average (log entry 92). -/
def State.avgPower (s : State) : Nat × Nat :=
  let sums := sampleSums s.pwt.samples
  (sums.1 / s.pwt.samples.length, (sums.1 - sums.2) / s.pwt.samples.length)

/-- The hottest reading, 0 with no valid sensor. -/
def State.hotNow (s : State) : Int := s.hottest.elim 0 (fun x => x.2)

/-- A regulator reports a fault (R31: reefing proceeds as if at the reef threshold). -/
def State.regFault (s : State) : Bool := s.pwt.arrayRail.regFault || s.pwt.logicRail.regFault

/-- Demand (R39). -/
def State.reefDemand (s : State) (avg : Nat) : Bool :=
  decide (s.rd Reg.pwtPowerCap < avg) || decide (s.thermThr 2 < s.hotNow) || s.regFault

/-- An evaluation that counts toward margin (R39). -/
def State.reefCalm (s : State) (avg : Nat) : Bool :=
  decide (avg + 1000 ≤ s.rd Reg.pwtPowerCap) && decide (s.hotNow ≤ s.thermThr 2 - 80) && !s.regFault

/-- PWT_REEF_STATE.cause for a demand: 3 avs, 1 cap, 2 thermal (R37, Table 2.14). -/
def State.reefCause (s : State) (avg meas : Nat) : Nat :=
  if s.regFault then 3
  else if s.rd Reg.pwtPowerCap < avg then (if meas ≤ s.rd Reg.pwtPowerCap then 3 else 1) else 2

/-- Without demand the cause stands, but avs, which R37 ties to the estimate, becomes cap (log entry 92). -/
def State.restCause (s : State) : State := if s.fld Reg.pwtReefState 2 2 = 3 then s.setFld Reg.pwtReefState 2 2 1 else s

/-- The step that an evaluation takes, undoes or holds (R39). -/
def State.reefAct (s : State) (avg meas : Nat) : State :=
  let run := if s.reefCalm avg then min 100 (s.pwt.marginRun + 1) else 0
  let s1 := { s with pwt := { s.pwt with marginRun := run } }
  if s.reefDemand avg then
    (s1.reefDown (decide (s.rd Reg.pwtPowerCap < avg))).setFld Reg.pwtReefState 2 2 (s.reefCause avg meas)
  else if 100 ≤ run then s1.restCause.reefUp else s1.restCause

/-- REEFING_EVALUATION (R36 to R40): the rails' voltage and current reads in mV and mA. -/
def State.reefEvaluate (s : State) (mvA maA mvL maL : Nat) : State :=
  let s0 := s.withSample (s.powerSample mvA maA mvL maL)
  let s1 := (s0.wr Reg.pwtPowerNow s0.avgPower.1).reefAct s0.avgPower.1 s0.avgPower.2
  let kind := s1.fld Reg.pwtReefState 2 2
  let s2 := if s1.reefLevel = 0 then s1.setFld Reg.pwtReefState 2 2 0 else s1
  s2.notifyAll kind

/-- PWT_POWER_CAP written (R38, Table 2.6). -/
def State.writeCap (s : State) (v : Nat) : State :=
  if v < 12000 ∨ 40000 < v then s.wr Reg.pwtCapResult 1
  else if v < s.rd Reg.pwtCapMinS then s.wr Reg.pwtCapResult 2
  else (s.wr Reg.pwtPowerCap v).wr Reg.pwtCapResult 0

end Sys2Proof.Machine
end

