-- ==== Sys2Proof/Machine/Ingress.lean ====
section
/-!
DEFINITION. Stream ingress: CSI-2, Ethernet and host-pushed streams (R49 to R75, R445).
-/
namespace Sys2Proof.Machine

/-! ### Streams -/

/-- What ingress keeps of a stream. -/
def State.inS (s : State) (st : Nat) : InStream := Tab.read (fun _ => {}) s.ing.strm st

/-- What ingress keeps of a stream, replaced. -/
def State.setIn (s : State) (st : Nat) (x : InStream) : State :=
  { s with ing := { s.ing with strm := Tab.write (fun _ => {}) s.ing.strm st x } }

/-- What ingress keeps of a stream, changed. -/
def State.updIn (s : State) (st : Nat) (f : InStream → InStream) : State := s.setIn st (f (s.inS st))

/-- The ingress pool of a stream (Table 3.1). -/
def State.stPool (s : State) (st : Nat) : Nat := s.strmFld st 16 0 16
/-- Line-ring slots. -/
def State.stRingLines (s : State) (st : Nat) : Nat := s.strmFld st 18 0 16
/-- Lines-stored sync object. -/
def State.stStored (s : State) (st : Nat) : Nat := s.strmFld st 20 0 16
/-- Lines-released sync object. -/
def State.stReleased (s : State) (st : Nat) : Nat := s.strmFld st 22 0 16
/-- Access-unit queue to the decoder, or the push queue of a host stream. -/
def State.stQueue (s : State) (st : Nat) : Nat := s.strmFld st 24 0 14

/-- The collector port of a stream's ingress: 16 CSI, 17 Ethernet and host (Table 10.8). -/
def ingPort (st : Nat) : Nat := if 64 ≤ st then 16 else 17

/-- The holder name of the ingress unit of a stream (R260): the port, E0 and E1 as 8 and 9, host push as 10. -/
def State.ingHolder (s : State) (st : Nat) : Nat :=
  holderName 2 (match s.stSource st with | 0 => s.stPort st | 3 => 10 | _ => 8 + s.stPort st)

/-- May a frame of the stream be admitted (R51, R332)? -/
def State.admits (s : State) (st : Nat) : Bool :=
  decide (s.stRun st = 1) && s.processing (s.stPart st) && !(s.bitAt Reg.safStatus 2)

/-- A STREAM_STATUS record of a stream from ingress (Table 10.7). -/
def State.ingRec (s : State) (st kind counter ts body : Nat) : Rec :=
  let b : Blob := { len := 40, val := body }
  { s.blankRec st with typ := 0x09, kind := kind, counter := counter, ts := ts, body := b }

/-- The record handed over. -/
def State.ingStatus (s : State) (st kind counter ts body : Nat) : State :=
  s.handRec (ingPort st) (s.ingRec st kind counter ts body)

/-- Records of ingress for one frame, the last with frame_done (R240). -/
def State.ingFrame (s : State) (st counter ts : Nat) (l : List Rec) : State := s.handFrame st (ingPort st) counter ts l

/-- An event of a CSI port or an Ethernet port (Table 19.1: detail stream, or 0xFFFF). -/
def State.csiErr (s : State) (k b : Nat) (st : Option Nat) : State :=
  s.raise { idx := 1, unit := k, bit := b, part := st.map s.stPart, detail := st.getD 0 }

/-- An event of an Ethernet port; host-pushed streams use E0's copy with unit 8 (log entry 12). -/
def State.ethErr (s : State) (e b : Nat) (st : Option Nat) : State :=
  s.raise { idx := 2, unit := 8 + e, bit := b, part := st.map s.stPart, detail := st.getD 0xFFFF }

/-- Is a snippet session armed or delivering on a stream? -/
def State.encArmed (s : State) (st : Nat) : Bool :=
  loopUp 16 (fun n b => b || (decide (s.fld (Reg.encSessState n) 0 3 = 1 ∨ s.fld (Reg.encSessState n) 0 3 = 2)
    && decide (bits (s.rd (Reg.encSessDesc n)) 8 7 = st))) false

/-- The pools that a stream's pipeline reserves from (R72): its ingress pool, its decoder's output pool, the pool of an armed encoder view (R126), the pools of its valid views. -/
def State.pipePools (s : State) (st : Nat) : List Nat :=
  [s.stPool st] ++ (if st < 64 then [s.fld (Reg.decStrmCfg st) 0 16] else [])
    ++ (if 64 ≤ st ∧ s.encArmed st = true then [s.fld (Reg.pfeStrmEnc st) 0 16] else [])
    ++ (List.range 4).filterMap (fun v =>
      if s.bitAt (Reg.pfeView st v) 0 && s.fld (Reg.pfeView st v + 28) 0 2 == 1 then some (s.fld (Reg.pfeView st v + 32) 0 16) else none)

/-- Does back-pressure meet the stream at a frame boundary (R72)? Class S streams are never dropped (R74). -/
def State.backPressed (s : State) (st : Nat) : Bool :=
  !(s.stClassS st) && (s.pipePools st).any (fun k => s.pLevel k 1 && decide (s.stPriority st < s.pProtected k))

/-- The FRAME_OPEN record of an admitted frame (R50). -/
def State.openRec (s : State) (st counter ts : Nat) : Rec :=
  let v := s.stPeriod st + s.stWidth st <<< 32 + s.stHeight st <<< 48
    + s.stSource st <<< 64 + s.stPart st <<< 72 + min (s.inS st).dropsSince 65535 <<< 80
  let b : Blob := { len := 12, val := v }
  { s.blankRec st with typ := 0x01, counter := counter, ts := ts, body := b }

/-- The registers that show an admitted frame; the drops before it have been told. -/
def State.noteOpen (s : State) (st ts : Nat) : State :=
  ((s.updIn st (fun x => { x with dropsSince := 0 })).bump (Reg.ingStrmFrames st) 1).wr64 (Reg.ingStrmLastTb st) ts

/-- A FRAME_OPEN record, and the registers that show the admitted frame (R50). -/
def State.openRecord (s : State) (st counter ts : Nat) : State :=
  (s.handRec (ingPort st) (s.openRec st counter ts)).noteOpen st ts

/-- The FRAME_SKIP record of a counter that jumped by more than one (R57, R69). -/
def State.skipRecs (s : State) (st counter ts missing : Nat) : List Rec :=
  if missing = 0 then [] else [s.ingRec st 0x02 counter ts (0x02 + missing <<< 32)]

/-- A frame dropped whole, counted and reported: kind 0x05 BP_DROP or 0x09 NO_BUFFER (R72, R445). -/
def State.dropFrame (s : State) (st counter ts kind : Nat) : State :=
  let s1 := s.updIn st (fun x => { x with dropsSince := x.dropsSince + 1 })
  (s1.bump (if kind = 0x09 then Reg.ingStrmNbDrops st else Reg.ingStrmBpDrops st) 1).ingStatus st kind counter ts kind

/-! ### CSI-2 (R52 to R59) -/

/-- The data types of Table 3.2 other than embedded data. -/
def csiTypes : List Nat := [0x1E, 0x1F, 0x24, 0x2A, 0x2B, 0x2C, 0x2D, 0x2E]

/-- Bytes of a line of `w` pixels in the CSI-2 packed layout of a data type. -/
def lineBytes (dt w : Nat) : Nat :=
  match dt with
  | 0x1E => 2 * w
  | 0x1F => 20 * w / 8
  | 0x24 => 3 * w
  | 0x2A => w
  | 0x2B => 10 * w / 8
  | 0x2C => 12 * w / 8
  | 0x2D => 14 * w / 8
  | _ => 2 * w

/-- The stream of a port and virtual channel: the first valid CSI-2 entry that names them. -/
def State.csiStream (s : State) (k vc : Nat) : Option Nat :=
  ((s.cfg.streams.map (fun e => e.1)).filter (fun st =>
    s.stValid st && decide (s.stSource st = 0) && decide (s.stPort st = k) && decide (s.strmFld st 2 0 4 = vc))).head?

/-- A packet header of a port: a corrected header is counted, the channel is shown as seen, and a fifth channel, which no entry names (Table 15.15), is an error (R52, R53, R75). -/
def State.csiHeader (s : State) (k vc : Nat) (fixed : Bool) : State :=
  let s1 := if fixed then s.bump (Reg.ingCsiEccCnt k) 1 else s
  let s2 := s1.setFld (Reg.ingCsiStatus k) (4 + vc) 1 1
  let fifth := decide (4 < popCount 16 (s2.fld (Reg.ingCsiStatus k) 4 16)) && (s.csiStream k vc).isNone
  if fifth then s2.csiErr k 3 none else s2

/-- ING_CSI_CTRL written: vc_seen and deskew_done count since enable (Table 3.8). -/
def State.csiCtrlWrite (s : State) (k v : Nat) : State :=
  let s1 := s.wr (Reg.ingCsiCtrl k) (bits v 0 8)
  if bit v 0 && !(s.bitAt (Reg.ingCsiCtrl k) 0) then (s1.setFld (Reg.ingCsiStatus k) 4 16 0).setFld (Reg.ingCsiStatus k) 1 1 0 else s1

/-- The frame counter after a frame number (R57): the new counter, the frames missing, and whether it is a repeat. -/
def fnCounter (counter prev wrap fn : Nat) : Nat × Nat × Bool :=
  let delta := if fn = 0 then 1 else if prev < fn then fn - prev else fn + wrap - prev
  if fn = prev ∧ fn ≠ 0 then ((counter + 1) % 2 ^ 32, 0, true)
  else ((counter + delta) % 2 ^ 32, delta - 1, false)

/-- fn_wrap of the stream entry. -/
def State.stFnWrap (s : State) (st : Nat) : Nat := s.strmFld st 28 0 16

/-- A frame opens at a Frame Start with number `fn`, or, without one, at a long packet (FS_MISSING, R59), which takes prev_fn + 1, wrapped as fn_wrap says (log entry 95). Only an admitted frame is the first of R51, or the first after a break. A back-pressured frame is dropped whole (R72); ingress stamps TB and passes FRAME_OPEN; FRAME_SKIP or FRAME_REPEAT follows it (R57). -/
def State.csiOpen (s : State) (st : Nat) (fnOpt : Option Nat) : State :=
  let x := s.inS st
  let fn := fnOpt.getD (x.prevFn % max 1 (s.stFnWrap st) + 1)
  let last := s.rd (Reg.ingStrmCounter st)
  let c : Nat × Nat × Bool :=
    if !x.seen then (fnOpt.getD 0, 0, false)
    else if x.resume then ((last + 1) % 2 ^ 32, 0, false)
    else fnCounter last x.prevFn (s.stFnWrap st) fn
  let adm := !(s.backPressed st)
  let firstBlind := !x.seen && fnOpt.isNone
  let x1 := if adm then { x with seen := true, resume := firstBlind, prevFn := if firstBlind then 0 else fn }
    else if x.seen && !x.resume then { x with prevFn := fn } else x
  let s1 := (s.setIn st x1).wr (Reg.ingStrmCounter st) c.1
  let fr : CsiFrame := { counter := c.1, ts := s.now, flags := if fnOpt.isNone then 1 else 0, admitted := adm }
  let s2 := s1.updIn st (fun y => { y with csi := some fr })
  let note : FeNotice := { engine := 4, stream := st, handle := none, base := s.syncVal (s.stStored st), counter := c.1, ts := s.now }
  let s3 := if fr.admitted then
      let s2a := s2.openRecord st c.1 s.now
      { s2a with dec := { s2a.dec with notices := s2a.dec.notices ++ [note] } }
    else s2.dropFrame st c.1 s.now 0x05
  let s4 := if c.2.2 then s3.ingStatus st 0x03 c.1 s.now 0x03
    else if c.2.1 ≠ 0 then s3.ingStatus st 0x02 c.1 s.now (0x02 + c.2.1 <<< 32) else s3
  if fnOpt.isNone then s4.csiErr (s.stPort st) 6 (some st) else s4

/-- The lines of a rising list as ranges of first line and count, merged into the eighth (R56). -/
def toRanges : List Nat → List (Nat × Nat)
  | [] => []
  | n :: t =>
    match toRanges t with
    | (f, c) :: r => if f = n + 1 then (n, c + 1) :: r else (n, 1) :: (f, c) :: r
    | [] => [(n, 1)]

/-- Ranges past the `k`-th merged into it: the last range reaches to the end of the last line. -/
def mergeRanges (k : Nat) (l : List (Nat × Nat)) : List (Nat × Nat) :=
  if l.length ≤ k then l
  else
    let keep := l.take (k - 1)
    match l.drop (k - 1), l.getLast? with
    | (f, _) :: _, some (g, c) => keep ++ [(f, g + c - f)]
    | _, _ => keep

/-- Ranges as 4 bytes each from bit `lo` on. -/
def rangeBits : List (Nat × Nat) → Nat → Nat
  | [], _ => 0
  | (f, c) :: t, lo => (f % 65536 + (c % 65536) <<< 16) <<< lo + rangeBits t (lo + 32)

/-- The open frame of a stream closes (R54, R56, R59): missing lines concealed, the remainder added to sync_stored, the concealment reported in the last record of ingress for the frame, or a mark sent (R240, log entry 36); `extra` are the flags that the close adds. -/
def State.csiClose (s : State) (st : Nat) (extra : Nat) : State :=
  match (s.inS st).csi with
  | none => s
  | some f =>
    if !f.admitted then s.updIn st (fun x => { x with csi := none })
    else
      let h := s.stHeight st
      let missing := (List.range h).drop f.line
      let bad := f.bad ++ missing
      let short := decide (f.line < h)
      let corrupt := decide (s.strmFld st 38 0 16 < bad.length)
      let flags := f.flags ||| extra ||| (if short && decide (extra = 0) then 4 else 0) ||| (if corrupt then 8 else 0)
      let s1 := s.updIn st (fun x => { x with csi := none, lastBad := bad, lastCorrupt := corrupt, lastClosed := f.counter, relBase := x.relBase + h })
      let s2 := s1.signal (s.stStored st) (h - f.stored)
      let s3 := s2.bump (Reg.ingStrmConcealed st) bad.length
      let s4 := if short || decide (extra ≠ 0) then s3.csiErr (s.stPort st) 6 (some st) else s3
      let rs := mergeRanges 8 (toRanges bad)
      let emb := if f.embRest.len = 0 then [] else [s4.ingRec st 0x04 f.counter f.ts f.embRest.val]
      s4.ingFrame st f.counter f.ts
        (emb ++ if bad.isEmpty && decide (flags = 0) then []
         else [s4.ingRec st 0x01 f.counter f.ts (0x01 + flags <<< 8 + rs.length <<< 16 + rangeBits rs 64)])

/-- CSI2_FRAME_START (R57, R59): port, virtual channel, frame number; whether a header bit was corrected and whether the duplicated decode of a class S stream differs (R314). -/
def State.csiFrameStart (s : State) (k vc fn : Nat) (fixed dup : Bool) : State :=
  if !(s.bitAt (Reg.ingCsiCtrl k) 0) then s
  else
    let s1 := s.csiHeader k vc fixed
    match s1.csiStream k vc with
    | none => s1.bump (Reg.ingCsiDropCnt k) 1
    | some st =>
      let s2 := if dup && s1.stClassS st then
          (s1.raise { idx := 14, unit := k, bit := 16, part := some (s1.stPart st), detail := 0x0D }).fault
            { cause := 0x0D, subsys := 2, unit := k, part := some (s1.stPart st), stream := some st }
        else s1
      let s3 := s2.csiClose st 2
      if s3.admits st then s3.csiOpen st (some fn) else s3

/-- The open frame of a stream changed. -/
def State.updCsi (s : State) (st : Nat) (f : CsiFrame → CsiFrame) : State :=
  s.updIn st (fun x => { x with csi := x.csi.map f })

/-- Lines added to sync_stored after each line group (R54). -/
def State.csiGroup (s : State) (st : Nat) : State :=
  let g := max 1 (s.strmFld st 14 0 16)
  match (s.inS st).csi with
  | none => s
  | some f =>
    if f.line % g = 0 then (s.updCsi st (fun x => { x with stored := f.line })).signal (s.stStored st) (f.line - f.stored) else s

/-- One line of an open, admitted frame: stored in its slot, or marked bad for its CRC, its word count or an occupied slot, of which the first that applies is reported (R53 to R56, log entry 95). -/
def State.csiLine (s : State) (k st wc : Nat) (crcOk : Bool) (data : Nat) : State :=
  match (s.inS st).csi with
  | none => s
  | some f =>
    if !f.admitted then s
    else if s.stHeight st ≤ f.line then
      ((s.bump (Reg.ingCsiDropCnt k) 1).updCsi st (fun x => { x with flags := x.flags ||| 4 })).csiErr k 6 (some st)
    else
      let n := f.line
      let lb := lineBytes (s.stFormat st) (s.stWidth st)
      let rel := s.syncVal (s.stReleased st) - (s.inS st).relBase
      let free := decide (n < s.stRingLines st) || decide (n + 1 ≤ s.stRingLines st + rel)
      let slot := n % max 1 (s.stRingLines st)
      let mark := fun (x : State) (fl : Nat) => x.updCsi st (fun y => { y with line := n + 1, bad := y.bad ++ [n], flags := y.flags ||| fl })
      let s1 := if !crcOk then ((mark s 0).bump (Reg.ingCsiCrcCnt k) 1).csiErr k 1 (some st)
        else if wc ≠ lb then (mark s 0).csiErr k 2 (some st)
        else if !free then (mark s 16).csiErr k 5 (some st)
        else (s.wrMem (s.bufAddr ((s.inS st).ring.getD 0) + slot * lb) lb data).updCsi st (fun y => { y with line := n + 1 })
      s1.csiGroup st

/-- CSI2_LINE_PACKET (R52 to R56, R59). -/
def State.csiLinePacket (s : State) (k vc dt wc : Nat) (crcOk fixed : Bool) (data : Nat) (dup : Bool) : State :=
  if !(s.bitAt (Reg.ingCsiCtrl k) 0) then s
  else
    let s1 := s.csiHeader k vc fixed
    match s1.csiStream k vc with
    | none => s1.bump (Reg.ingCsiDropCnt k) 1
    | some st =>
      if !(csiTypes.contains dt) || decide (dt ≠ s1.stFormat st) then s1.bump (Reg.ingCsiDropCnt k) 1
      else
        let s2 := if dup && s1.stClassS st then
            (s1.raise { idx := 14, unit := k, bit := 16, part := some (s1.stPart st), detail := 0x0D }).fault
              { cause := 0x0D, subsys := 2, unit := k, part := some (s1.stPart st), stream := some st }
          else s1
        let s3 := if (s2.inS st).csi.isNone && s2.admits st then s2.csiOpen st none else s2
        s3.csiLine k st wc crcOk data

/-- The first 2,560 embedded bytes of a frame go out in records of 40 bytes each, over the lines as they come; what does not fill a record waits, at most until the frame closes. The rest is discarded and counted (R58, log entry 95). -/
def State.embRecords (s : State) (st : Nat) (data : Blob) : State :=
  match (s.inS st).csi with
  | none => s
  | some f =>
    let take := min data.len (2560 - f.embBytes)
    let all := Blob.append f.embRest (data.slice 0 take)
    let n := all.len / 40
    let s1 := s.updCsi st (fun x => { x with embBytes := x.embBytes + take, embRest := all.slice (40 * n) (all.len - 40 * n) })
    let s2 := (List.range n).foldl (fun (x : State) i => x.ingStatus st 0x04 f.counter f.ts (all.le (40 * i) 40)) s1
    s2.bump (Reg.ingStrmEmbTrunc st) (data.len - take)

/-- CSI2_EMBEDDED_PACKET (R58). A failed CRC is counted; the line is delivered. -/
def State.csiEmbedded (s : State) (k vc : Nat) (crcOk fixed : Bool) (data : Blob) : State :=
  if !(s.bitAt (Reg.ingCsiCtrl k) 0) then s
  else
    let s1 := s.csiHeader k vc fixed
    match s1.csiStream k vc with
    | none => s1.bump (Reg.ingCsiDropCnt k) 1
    | some st =>
      let s2 := if crcOk then s1 else (s1.bump (Reg.ingCsiCrcCnt k) 1).csiErr k 1 (some st)
      let s3 := if (s2.inS st).csi.isNone && s2.admits st then s2.csiOpen st none else s2
      if ((s3.inS st).csi.elim false (fun f => f.admitted)) then
        s3.embRecords st data
      else s3

/-- CSI2_FRAME_END (R54, R59). -/
def State.csiFrameEnd (s : State) (k vc : Nat) (fixed : Bool) : State :=
  if !(s.bitAt (Reg.ingCsiCtrl k) 0) then s
  else
    let s1 := s.csiHeader k vc fixed
    match s1.csiStream k vc with
    | none => s1.bump (Reg.ingCsiDropCnt k) 1
    | some st => s1.csiClose st 0

/-- CSI2_HEADER_UNCORRECTABLE (R53): the packet is discarded whole and attributed to no stream. -/
def State.csiHeaderBad (s : State) (k : Nat) : State :=
  if s.bitAt (Reg.ingCsiCtrl k) 0 then s.csiErr k 0 none else s

/-- CSI2_LANE_SYNC_ERROR (R53). -/
def State.csiSyncErr (s : State) (k : Nat) : State :=
  if s.bitAt (Reg.ingCsiCtrl k) 0 then s.csiErr k 4 none else s

/-- ULPS_ENTRY_EXIT (R52): ING_CSI_STATUS hs_active, deskew_done, ulps. -/
def State.csiUlps (s : State) (k : Nat) (ulps hs deskew : Bool) : State :=
  if !(s.bitAt (Reg.ingCsiCtrl k) 0) then s
  else
    let s1 := (s.setFld (Reg.ingCsiStatus k) 0 1 (b2n hs)).setFld (Reg.ingCsiStatus k) 2 1 (b2n ulps)
    if deskew then s1.setFld (Reg.ingCsiStatus k) 1 1 1 else s1

/-! ### Ethernet (R60 to R69) -/

/-- ETH_LINK_CHANGE (R60): rate code 0 10, 1 5, 2 2.5, 3 1 Gb/s. -/
def State.ethLink (s : State) (e : Nat) (up : Bool) (rate : Nat) : State :=
  (s.setFld (Reg.ingEthStatus e) 0 1 (b2n up)).setFld (Reg.ingEthStatus e) 1 2 (if up then rate else 0)

/-- Does the UDP checksum pass (Table 3.3): verified when non-zero on IPv4, and always on IPv6? -/
def udpPasses (f : EthFrame) : Bool := if f.net = .ipv4 && f.udpSumZero then true else !f.udpSumZero && f.udpSumOk

/-- The drop cause of Table 3.3 before classification: 0 FRAMING, 1 CHECKSUM, 2 FRAGMENT, none when the frame passes. Other EtherTypes and IP protocols count as FRAMING, and of several causes the first in the order of this definition counts (log entry 95). -/
def frameDrop (f : EthFrame) : Option Nat :=
  if 2 ≤ f.tags || f.llc then some 0
  else match f.net with
    | .other => some 0
    | .avtp => none
    | _ =>
      if !f.plainHeader then some 0
      else if f.net = .ipv4 && !f.ipSumOk then some 1
      else if f.fragment then some 2
      else if !f.udp then some 0
      else if !(udpPasses f) then some 1
      else if f.rtpVersion ≠ 2 then some 0
      else none

/-- Is a payload accepted for a stream of a source and a format (Table 3.3): 1 H.264 and 2 HEVC over RTP, 1 H.264 and 3 MJPEG over IEEE 1722? -/
def payloadFits (source format : Nat) (f : EthFrame) : Bool :=
  match f.payload with
  | .h264Single | .stapA | .fuA => decide (source = 1) && decide (format = 1)
  | .hevcSingle | .hevcAggregate | .hevcFragment => decide (source = 1) && decide (format = 2)
  | .avtpH264 => decide (source = 2) && decide (format = 1) && f.streamValid
  | .avtpMjpeg => decide (source = 2) && decide (format = 3) && f.streamValid
  | .stapB | .mtap16 | .mtap24 | .fuB | .hevcDon | .paci | .rtpJpeg | .avtpJpeg2000 | .other => false

/-- Does classification entry `d` match a frame of port `e` (Table 3.4, R63)? The source address of kind 0b00 lies in bytes 24 to 27 (log entry 95). -/
def classMatches (d : Nat) (e : Nat) (f : EthFrame) : Bool :=
  let kind := bits d 4 2
  d.testBit 0 && d.testBit (1 + e)
  && (!(d.testBit 3) || (decide (f.tags = 1) && decide (bits d 16 12 = f.vlan.toNat)))
  && (if kind = 2 then decide (f.net = .avtp) && decide (bits d 352 64 = f.streamId.toNat)
      else if kind = 3 then false
      else decide (f.net = (if kind = 0 then .ipv4 else .ipv6))
        && decide (bits d 32 7 = f.payloadType.toNat)
        && decide (bits d 48 16 = f.udpDst.toNat)
        && (if kind = 0 then decide (bits d 64 32 = f.dst.toNat % 2 ^ 32) else decide (bits d 64 128 = f.dst.toNat))
        && (!(d.testBit 6) || (if kind = 0 then decide (bits d 192 32 = f.src.toNat % 2 ^ 32) else decide (bits d 192 128 = f.src.toNat)))
        && (!(d.testBit 7) || decide (bits d 320 32 = f.ssrc.toNat)))

/-- The stream that the first matching entry in index order selects (R63). -/
def State.classify (s : State) (e : Nat) (f : EthFrame) : Option Nat :=
  match (s.ing.classes.map (fun x => x.2.toNat)).find? (fun d => classMatches d e f) with
  | some d =>
    let st := bits d 40 6
    if s.stValid st && decide (s.stSource st = (if bits d 4 2 = 2 then 2 else 1)) then some st else none
  | none => none

/-- Sequence space of a stream (R66): modulus, window W, half H. -/
def State.seqSpace (s : State) (st : Nat) : Nat × Nat × Nat :=
  if s.stSource st = 2 then (256, 64, 128) else (65536, 1024, 32768)

/-- Slots of a port's reorder store in use: the packets received by the port that wait or are held under R73. -/
def State.storeUsed (s : State) (e : Nat) : Nat :=
  let mine := fun (l : List Packet) => (l.filter (fun p => decide (p.port = e))).length
  s.ing.strm.foldl (fun n x => n + mine x.2.waiting + x.2.au.elim 0 (fun a => mine a.heldPkts)) 0

/-- The store's level shown, and PAUSE frames at 896 and 512 slots (R61). -/
def State.storeLevel (s : State) (e : Nat) : State :=
  let n := s.storeUsed e
  let s1 := s.setFld (Reg.ingEthStatus e) 4 12 n
  if !(s.bitAt (Reg.ingEthCtrl e) 1) then s1
  else if 896 < n ∧ ¬ s.ing.paused.contains e then
    ({ s1 with ing := { s1.ing with paused := s1.ing.paused ++ [e] } }).emit (.pause e (s.fld (Reg.ingEthPause e) 0 16))
  else if n < 512 ∧ s.ing.paused.contains e then
    ({ s1 with ing := { s1.ing with paused := s1.ing.paused.filter (fun x => decide (x ≠ e)) } }).emit (.pause e 0)
  else s1

/-- The levels of both stores. -/
def State.storeLevels (s : State) : State := (s.storeLevel 0).storeLevel 1

/-- A loss recorded in a unit (R68): a gap at the current length; a fifth extends the fourth to the end. A NAL unit in fragments is discarded whole. -/
def AuBuild.addGap (a : AuBuild) (lost : Nat) : AuBuild :=
  let len := a.frag.getD a.len
  let a1 := { a with len := len, frag := none }
  if a1.toEnd then { a1 with gaps := a1.gaps.dropLast ++ (a1.gaps.getLast?.map (fun g => (g.1, g.2 + lost))).toList }
  else if a1.gaps.length < 4 then { a1 with gaps := a1.gaps ++ [(len, lost)] }
  else { a1 with toEnd := true, gaps := a1.gaps.dropLast ++ (a1.gaps.getLast?.map (fun g => (g.1, g.2 + lost))).toList }

/-- Data written at a unit's end; what does not fit its buffer is cut: truncated, a gap to its end (R68). -/
def State.auWrite (s : State) (st : Nat) (a : AuBuild) (b : Blob) : State × AuBuild :=
  if a.toEnd then (s, a)
  else
    let room := s.pBufSize (hPool a.handle) - a.len
    if b.len ≤ room then ((s.wrMem (s.bufAddr a.handle + a.len) b.len b.val), { a with len := a.len + b.len })
    else
      let s1 := (s.wrMem (s.bufAddr a.handle + a.len) room b.val).ethErr (s.stPort st) 3 (some st)
      let a1 := { a with len := a.len + room, frag := none }
      (s1, { (if a1.gaps.length < 4 then { a1 with gaps := a1.gaps ++ [(a1.len, 0)] } else a1) with truncated := true, toEnd := true })

/-- The Annex B start code (R67, log entry 13). -/
def startCode (b : Blob) : Blob := Blob.append { len := 4, val := 0x01000000 } b

/-- One piece of a packet into its unit (R67, R68). -/
def State.auPiece (s : State) (st : Nat) (a : AuBuild) (p : Piece) : State × AuBuild :=
  match p.kind with
  | .raw => s.auWrite st a p.data
  | .whole =>
    let a1 := if a.frag.isSome then a.addGap 0 else a
    s.auWrite st a1 (startCode p.data)
  | .first =>
    let a1 := if a.frag.isSome then a.addGap 0 else a
    let r := s.auWrite st a1 (startCode p.data)
    (r.1, if r.2.toEnd then r.2 else { r.2 with frag := some a1.len })
  | .middle => if a.frag.isSome then s.auWrite st a p.data else (s, a)
  | .last =>
    if a.frag.isSome then
      let r := s.auWrite st a p.data
      (r.1, { r.2 with frag := none })
    else (s, a)

/-- The pieces of a packet in turn. -/
def State.auPieces (s : State) (st : Nat) (a : AuBuild) : List Piece → State × AuBuild
  | [] => (s, a)
  | p :: t => let r := s.auPiece st a p; State.auPieces r.1 st r.2 t

/-- Nearest integer of a / b, halves away from zero (R69); 0 for b = 0. -/
def roundDiv (a b : Nat) : Nat := if b = 0 then 0 else (2 * a + b) / (2 * b)

/-- The counter of the next access unit of an Ethernet stream and the frames missing (R69, R51). -/
def State.ethCounter (s : State) (st stamp : Nat) : Nat × Nat :=
  let x := s.inS st
  let last := s.rd (Reg.ingStrmCounter st)
  if !x.seen then (0, 0)
  else if x.resume then ((last + 1) % 2 ^ 32, 0)
  else
    let per := s.strmFld st 40 0 32
    let dt := (stamp + 2 ^ 32 - x.prevStamp) % 2 ^ 32
    let delta := if per = 0 then 1 else max 1 (roundDiv dt per)
    ((last + delta) % 2 ^ 32, delta - 1)

/-- The counter of a unit taken: registers, previous timestamp; with its FRAME_SKIP. Only an admitted unit is the first of R51, or the first after a break. -/
def State.takeCounter (s : State) (st stamp ts : Nat) (adm : Bool) : State × Nat × List Rec :=
  let c := s.ethCounter st stamp
  let note := fun (x : InStream) =>
    if adm then { x with seen := true, resume := false, prevStamp := stamp }
    else if x.seen && !x.resume then { x with prevStamp := stamp } else x
  ((s.updIn st note).wr (Reg.ingStrmCounter st) c.1,
   c.1, s.skipRecs st c.1 ts c.2)

/-- A unit dropped at its boundary takes its counter; FRAME_SKIP, then the drop's report (R72, R445). -/
def State.dropUnit (s : State) (st stamp ts kind : Nat) : State :=
  let r := s.takeCounter st stamp ts false
  (r.2.2.foldl (fun x y => x.handRec (ingPort st) y) r.1).dropFrame st r.2.1 ts kind

/-- The gaps of an entry as bits (Table 3.5). -/
def gapBits : List (Nat × Nat) → Nat → Nat
  | [], _ => 0
  | (o, n) :: t, lo => (o % 2 ^ 32 + (min n 65535) <<< 32) <<< lo + gapBits t (lo + 64)

/-- The access unit of a stream completes (R67): the entry goes to the decoder's queue and FRAME_OPEN is issued. A unit that was dropped ends without either. -/
def State.auComplete (s : State) (st : Nat) : State :=
  match (s.inS st).au with
  | none => s
  | some a0 =>
    let s0 := s.updIn st (fun x => { x with au := none })
    if a0.held then
      (s0.updIn st (fun x => { x with dropping := true })).dropUnit st a0.stamp a0.tb 0x05
    else if a0.dropped then s0
    else
      let a := if a0.frag.isSome then a0.addGap 0 else a0
      let r := s0.takeCounter st a.stamp a.tb true
      let lost := a.gaps.foldl (fun n g => n + g.2) 0
      let gaps := if a.gaps.isEmpty then [] else [s0.ingRec st 0x08 r.2.1 a.tb (0x08 + a.gaps.length <<< 16 + (lost % 2 ^ 32) <<< 32)]
      let s1 := (r.1.ingFrame st r.2.1 a.tb ([s0.openRec st r.2.1 a.tb] ++ r.2.2 ++ gaps)).noteOpen st a.tb
      let s2 := s1.bump (Reg.ingStrmConcealed st) a.gaps.length
      let entry := 0x02 + st <<< 8 + (b2n a.truncated) <<< 19 + (a.len % 2 ^ 32) <<< 32 + s.bufAddr a.handle <<< 64
        + r.2.1 <<< 128 + 0xFFFF <<< 160 + a.gaps.length <<< 176 + a.tb <<< 192 + gapBits a.gaps 256
      s2.enqueue (s.stQueue st) entry

/-- The buffer and queue credit of an access unit reserved (R67, R255, R445). -/
def State.auReserve (s : State) (st : Nat) : Option (State × Nat) :=
  if s.qFree (s.stQueue st) = 0 then none
  else match s.tryReserve (s.stPart st) (s.ingHolder st) [(s.stPool st, 1)] with
    | some (s1, h :: _) => some (s1, h)
    | _ => none

/-- A unit admitted at its boundary, or dropped for want of a buffer: NO_BUFFER for class F, one fault with cause POOL for class S (R74, R445). Such a unit counts as a reference picture until its header shows otherwise (R73, log entry 95). -/
def State.auAdmit (s : State) (st : Nat) (a : AuBuild) : State :=
  match s.auReserve st with
  | some (s1, h) => s1.updIn st (fun x => { x with au := some { a with handle := h, held := false, heldPkts := [] } })
  | none =>
    let fresh := !(s.inS st).dropping && decide (s.stFormat st ≠ 3)
    let s1 := s.updIn st (fun x => { x with au := some { a with dropped := true, held := false, heldPkts := [], noBuf := fresh && !(s.stClassS st) } })
    if s.stClassS st then (s1.refuseS (s.stPart st) (s.ingHolder st) (s.stPool st)).ethErr (s.stPort st) 5 (some st)
    else
      (s1.updIn st (fun x => { x with dropping := x.dropping || decide (s.stFormat st ≠ 3) })).dropUnit st a.stamp a.tb 0x09

/-- The first packet of an access unit: the frame boundary (R72, R73). -/
def State.auBegin (s : State) (st stamp tb : Nat) : State :=
  let a : AuBuild := { stamp := stamp, tb := tb }
  if !(s.admits st) then s.updIn st (fun x => { x with au := some { a with dropped := true } })
  else
    let bp := s.backPressed st
    if !bp && !(s.inS st).dropping then s.auAdmit st a
    else if s.stFormat st = 3 then
      if bp then
        (s.updIn st (fun x => { x with au := some { a with dropped := true } })).dropUnit st stamp tb 0x05
      else (s.updIn st (fun x => { x with dropping := false })).auAdmit st a
    else s.updIn st (fun x => { x with au := some { a with held := true, bp := bp } })

/-- Has a held unit had its packet with the marker? -/
def AuBuild.marked (a : AuBuild) : Bool := a.held && a.heldPkts.any (fun p => p.frame.marker)

/-- Does a packet start a new unit after `a`: a new RTP timestamp, or a unit held for R73 that its marker has ended (R67)? An AVTP unit ends with its M bit only. -/
def State.startsUnit (s : State) (st : Nat) (a : AuBuild) (p : Packet) : Bool :=
  a.marked || (decide (s.stSource st = 1) && decide (a.stamp ≠ p.frame.stamp.toNat))

/-- One packet delivered in number order (R66 to R68): a new RTP timestamp ends the unit before it, and takes the losses before it to that unit's end; else they are a gap of the unit that the packet belongs to, which a held unit notes for its decision. The marker ends the unit. -/
def State.deliverPkt (s : State) (st : Nat) (p : Packet) : State :=
  let x := s.inS st
  let stamp := p.frame.stamp.toNat
  let s0 := s.updIn st (fun y => { y with lostRun := 0 })
  let r : State × Nat := match x.au with
    | none => (s0.auBegin st stamp p.tb, x.lostRun)
    | some a =>
      if !(s.startsUnit st a p) then (s0, x.lostRun)
      else if x.lostRun = 0 || a.marked then ((s0.auComplete st).auBegin st stamp p.tb, x.lostRun)
      else
        let s' := s0.updIn st (fun y => { y with au := some { a.addGap x.lostRun with toEnd := true } })
        ((s'.auComplete st).auBegin st stamp p.tb, 0)
  match (r.1.inS st).au with
  | none => r.1
  | some a =>
    let a1 := { a with tb := min a.tb p.tb }
    if a1.held then r.1.updIn st (fun y => { y with au := some { a1 with heldPkts := a1.heldPkts ++ [{ p with lost := r.2 }] } })
    else
      let a2 := if r.2 = 0 then a1 else a1.addGap r.2
      let w := if a2.dropped then (r.1, a2) else r.1.auPieces st a2 p.frame.pieces
      let s2 := w.1.updIn st (fun y => { y with au := some w.2 })
      if p.frame.marker then s2.auComplete st else s2

/-- Would a packet delivered now be held for R73, and so keep a slot of the store? -/
def State.wouldHold (s : State) (st : Nat) (p : Packet) : Bool :=
  match (s.inS st).au with
  | some a => if s.startsUnit st a p then s.admits st && (s.backPressed st || (s.inS st).dropping || a.held) && decide (s.stFormat st ≠ 3) else a.held
  | none => s.admits st && (s.backPressed st || (s.inS st).dropping) && decide (s.stFormat st ≠ 3)

/-- A packet that finds the store of its port full (R66). -/
def State.storeFull (s : State) (st : Nat) (p : Packet) : State := (s.bump (Reg.ingEthStoreFullCnt p.port) 1).ethErr p.port 2 (some st)

/-- Numbers `E` up to the first waiting packet declared lost (R66). -/
def State.declareLost (s : State) (st n : Nat) : State :=
  (s.updIn st (fun x => { x with lostRun := x.lostRun + n })).bump (Reg.ingStrmLost st) n

/-- The waiting packet at distance 0 from E, delivered while there is one; `fuel` bounds the packets waiting. -/
def State.deliverReady (s : State) (st : Nat) : Nat → State
  | 0 => s
  | n + 1 =>
    let x := s.inS st
    match x.expect with
    | none => s
    | some e =>
      match x.waiting.find? (fun p => p.seq = e) with
      | none => s
      | some p =>
        let s1 := s.updIn st (fun y => { y with
          waiting := y.waiting.filter (fun q => decide (q.seq ≠ e)), expect := some ((e + 1) % (s.seqSpace st).1) })
        State.deliverReady (s1.deliverPkt st p) st n

/-- The least distance from E among the waiting packets. -/
def State.nextWaiting (s : State) (st : Nat) : Option Nat :=
  let x := s.inS st
  let m := (s.seqSpace st).1
  x.waiting.foldl (fun acc p =>
    let d := (p.seq + m - x.expect.getD 0) % m
    match acc with | none => some d | some b => some (min b d)) none

/-- The numbers below the first waiting packet declared lost, and delivery goes on. -/
def State.skipToWaiting (s : State) (st : Nat) : State :=
  match s.nextWaiting st with
  | none => s
  | some d =>
    let m := (s.seqSpace st).1
    let s1 := (s.updIn st (fun x => { x with expect := some ((x.expect.getD 0 + d) % m) })).declareLost st d
    s1.deliverReady st ((s.inS st).waiting.length)

/-- Every waiting packet delivered in number order (R66, sequence jump). -/
def State.flushStore (s : State) (st : Nat) : Nat → State
  | 0 => s
  | n + 1 => if (s.inS st).waiting.isEmpty then s else State.flushStore (s.skipToWaiting st) st n

/-- A classified packet of a stream by its distance from E (R66). It waits in the store of the port that received it; one that a held unit would keep is dropped as STORE_FULL like a waiting one. -/
def State.placePacket (s : State) (e st : Nat) (p : Packet) : State :=
  let x := s.inS st
  let sp := s.seqSpace st
  let exp := x.expect.getD p.seq
  let s0 := s.updIn st (fun y => { y with expect := some exp })
  let d := (p.seq + sp.1 - exp) % sp.1
  if sp.2.2 ≤ d then s0.bump (Reg.ingStrmLateDup st) 1
  else if sp.2.1 < d then
    let s1 := s0.flushStore st (x.waiting.length + 1)
    let s2 := match (s1.inS st).au with
      | some a => (s1.updIn st (fun y => { y with au := some { a.addGap 0 with toEnd := true } })).auComplete st
      | none => s1
    let lost := s1.rd (Reg.ingStrmLost st) - s0.rd (Reg.ingStrmLost st)
    let gap := b2n (s1.inS st).au.isSome
    let full := s2.wouldHold st p && decide (1024 ≤ s2.storeUsed e)
    let s3 := s2.updIn st (fun y => { y with expect := some (if full then p.seq else (p.seq + 1) % sp.1), lostRun := 0 })
    let s4 := (s3.ingStatus st 0x06 (s3.rd (Reg.ingStrmCounter st)) p.tb (0x06 + gap <<< 16 + (lost % 2 ^ 32) <<< 32)).ethErr e 1 (some st)
    if full then s4.storeFull st p else s4.deliverPkt st p
  else if x.waiting.any (fun q => decide (q.seq = p.seq)) then s0.bump (Reg.ingStrmLateDup st) 1
  else if d = 0 && s0.wouldHold st p && decide (1024 ≤ s.storeUsed e) then s0.storeFull st p
  else if d = 0 then
    let s1 := s0.updIn st (fun y => { y with expect := some ((p.seq + 1) % sp.1) })
    (s1.deliverPkt st p).deliverReady st x.waiting.length
  else if 1024 ≤ s.storeUsed e then s0.storeFull st p
  else
    let s1 := s0.updIn st (fun y => { y with waiting := y.waiting ++ [p] })
    if s.strmFld st 26 0 16 = 0 then s1.skipToWaiting st else s1

/-- ETH_FRAME_RECEIVE (R60 to R69). -/
def State.ethFrame (s : State) (e : Nat) (f : EthFrame) : State :=
  if !(s.bitAt (Reg.ingEthCtrl e) 0) || !(s.bitAt (Reg.ingEthStatus e) 0) then s
  else
    let s1 := s.bump (Reg.ingEthRxCnt e) 1
    if !f.fcsOk then s1.bump (Reg.ingEthFcsCnt e) 1
    else if 1522 < f.bytes then s1.bump (Reg.ingEthDropCnt e 4) 1
    else if f.isPause then s1
    else match frameDrop f with
      | some c => s1.bump (Reg.ingEthDropCnt e c) 1
      | none =>
        match s1.classify e f with
        | none => s1.bump (Reg.ingEthUnclassCnt e) 1
        | some st =>
          if !(payloadFits (s1.stSource st) (s1.stFormat st) f) then
            (s1.bump (Reg.ingEthDropCnt e 3) 1).ethErr e 0 (some st)
          else if s1.stRun st = 0 then s1
          else (s1.placePacket e st { seq := f.seq.toNat % (s1.seqSpace st).1, tb := s.now, port := e, frame := f }).storeLevels

/-- PACKET_DECLARED_LOST (R66): the oldest waiting packet has waited jitter_us. -/
def State.packetLost (s : State) (st : Nat) : State :=
  let x := s.inS st
  match x.waiting.foldl (fun acc (p : Packet) => match acc with | none => some p.tb | some b => some (min b p.tb)) none with
  | none => s
  | some t =>
    if s.now < t + 1000 * s.strmFld st 26 0 16 then s
    else (s.skipToWaiting st).storeLevels

/-- ING_ETH_CLASS written word by word; the entry takes effect when bytes 0–3 are written (R64). -/
def State.ethClassWrite (s : State) (n word v : Nat) : State :=
  let s1 := s.wr (Reg.ingEthClass n + 4 * word) v
  if word = 0 then
    { s1 with ing := { s1.ing with classes := Tab.write (fun _ => 0) s1.ing.classes n (BitVec.ofNat 512 (s1.rdWords (Reg.ingEthClass n) 16)) } }
  else s1

/-! ### Host-pushed access units (R70, R71, R73, R445) -/

/-- A field of an access-unit entry (Table 3.5). -/
def auFld (e : Desc64) (byte lo len : Nat) : Nat := bits e.toNat (8 * byte + lo) len

/-- done_sync of an entry: signalled in range, else HAL_ERR.fence (R71). -/
def State.pushSync (s : State) (st : Nat) (e : Desc64) : State :=
  if auFld e 2 0 1 = 0 then s
  else
    let n := auFld e 20 0 16
    if s.inSyncRange (s.stPart st) n then s.signal n 1 else s.halErr 2 n (some (s.stPart st))

/-- A rejected entry: its cause in a STREAM_STATUS record, its sync still signalled (R71). After a failed read it is the last record of ingress for the frame (R240). -/
def State.pushReject (s : State) (st cause : Nat) (e : Desc64) : State :=
  let r := s.ingRec st 0x07 (auFld e 16 0 32) s.now (0x07 + cause <<< 24)
  ((s.handRec (ingPort st) { r with frameDone := decide (cause = 5) }).ethErr 0 4 (some st)).pushSync st e

/-- The first cause of R71's list that rejects an entry of stream `st`; cause 5 is the read's. -/
def State.pushCause (s : State) (st : Nat) (e : Desc64) : Option Nat :=
  let x := s.inS st
  let c := auFld e 16 0 32
  let ahead := (c + 2 ^ 32 - x.lastPush) % 2 ^ 32
  if s.qOwner (s.stQueue st) ≠ s.stPart st then some 1
  else if s.stSource st ≠ 3 then some 2
  else if s.pBufSize (s.stPool st) < auFld e 4 0 32 then some 3
  else if x.pushed && (decide (ahead = 0) || decide (2 ^ 31 ≤ ahead)) then some 4
  else if auFld e 0 0 8 ≠ 0x01 then some 6
  else if auFld e 1 0 6 ≠ st then some 7
  else none

/-- The counter of an entry taken; an unintended jump is a FRAME_SKIP (Table 3.5 discontinuity). Only an admitted entry is the first frame of R51. -/
def State.pushCounter (s : State) (st ts : Nat) (e : Desc64) (adm : Bool) : State :=
  let x := s.inS st
  let c := auFld e 16 0 32
  let ahead := (c + 2 ^ 32 - x.lastPush) % 2 ^ 32
  let s1 := (s.updIn st (fun y => { y with pushed := y.pushed || adm, seen := y.seen || adm, resume := y.resume && !adm, lastPush := c })).wr (Reg.ingStrmCounter st) c
  if x.pushed && !x.resume && decide (1 < ahead) && auFld e 2 1 1 == 0 then s1.ingStatus st 0x02 c ts (0x02 + (ahead - 1) <<< 32) else s1

/-- An entry as its fetch stamps it: timestamp 0 takes the PTP time of the fetch (Table 3.5). -/
def State.pushStamp (s : State) (e : Desc64) : Desc64 :=
  if auFld e 24 0 64 = 0 then BitVec.ofNat 512 (putBits e.toNat 192 64 s.now) else e

/-- An admitted entry: FRAME_OPEN (R50), and its counter taken. -/
def State.pushOpen (s : State) (st : Nat) (e : Desc64) : State :=
  let ts := auFld e 24 0 64
  (s.openRecord st (auFld e 16 0 32) ts).pushCounter st ts e true

/-- The DMA read of an admitted entry starts, with its buffer (R70, R341). -/
def State.pushStart (s : State) (st : Nat) (r : PushRead) (h : Nat) : State :=
  (s.hostGet (s.stPart st) (auFld r.entry 8 0 64) (auFld r.entry 4 0 32)).updIn st (fun x => { x with reads := x.reads ++ [{ r with handle := h }] })

/-- The counter accepted last, for an entry about to be taken (R71). -/
def State.pushPrev (s : State) (st : Nat) : Option Nat := if (s.inS st).pushed then some (s.inS st).lastPush else none

/-- An entry rejected after its counter was taken: the last accepted one is that before it, for later entries too (R71, R51). -/
def State.pushUndo (s : State) (st : Nat) (r : PushRead) : State :=
  let c := auFld r.entry 16 0 32
  let back := fun (q : PushRead) => if q.prev = some c then { q with prev := r.prev } else q
  s.updIn st (fun x =>
    let y := { x with reads := x.reads.map back, pushWait := x.pushWait.map back, pushHeld := x.pushHeld.map back }
    if x.lastPush = c then { y with pushed := r.prev.isSome, lastPush := r.prev.getD 0 } else y)

/-- A pushed unit taken in: its buffer reserved, waited for in class F, refused in class S (R70, R74, R445). Its frame opens at the fetch, whether or not it waits (R50). -/
def State.pushAdmit (s : State) (st : Nat) (e : Desc64) : State :=
  let r : PushRead := { entry := e, prev := s.pushPrev st }
  match s.tryReserve (s.stPart st) (s.ingHolder st) [(s.stPool st, 1)] with
  | some (s1, h :: _) => (s1.pushOpen st e).pushStart st r h
  | _ =>
    if s.stClassS st then ((s.refuseS (s.stPart st) (s.ingHolder st) (s.stPool st)).ethErr 0 5 (some st)).pushSync st e
    else
      let w : Waiting := { tag := s.stPart st, holder := s.ingHolder st, pairs := [(s.stPool st, 1)], tb := s.now, push := some st }
      let s1 := (s.pushOpen st e).updIn st (fun x => { x with pushWait := some r })
      { (s1.bump (Reg.poolStat (s.stPool st) + 0xC) 1) with pool := { s1.pool with waiting := s1.pool.waiting ++ [w] } }

/-- A pushed unit dropped under R72 or R73: its done_sync is still signalled. -/
def State.pushDrop (s : State) (st : Nat) (e : Desc64) : State :=
  ((s.pushCounter st (auFld e 24 0 64) e false).dropFrame st (auFld e 16 0 32) (auFld e 24 0 64) 0x05).pushSync st e

/-- PUSH_AU (R70 to R73): the next entry of the stream's push queue, which the command carries as host memory holds it. -/
def State.pushAu (s : State) (st : Nat) (e : Desc64) : State :=
  let q := s.stQueue st
  if !(s.admits st) || !(s.qEnabled q) || decide (s.qHeld q = 0) || (s.inS st).pushWait.isSome || (s.inS st).pushHeld.isSome then s
  else
    let s1 := s.takeSubmission q
    match s1.pushCause st e with
    | some c => s1.pushReject st c e
    | none =>
      let e := s.pushStamp e
      let bp := s1.backPressed st
      if !bp && !(s1.inS st).dropping then s1.pushAdmit st e
      else if s1.stFormat st = 3 then
        if bp then s1.pushDrop st e
        else (s1.updIn st (fun x => { x with dropping := false })).pushAdmit st e
      else s1.updIn st (fun x => { x with pushHeld := some { entry := e, bp := bp } })

/-- PUSH_AU_READ_DONE (R70, R71): the oldest read in flight ends, and with it what ingress has to say of the frame. -/
def State.pushReadDone (s : State) (st : Nat) (ok : Bool) (data : Nat) : State :=
  match (s.inS st).reads with
  | [] => s
  | r :: rest =>
    let s1 := s.updIn st (fun x => { x with reads := rest })
    if !ok then ((s1.giveUp (s.stPart st) (s.ingHolder st) r.handle).pushUndo st r).pushReject st 5 r.entry
    else
      let a := s1.bufAddr r.handle
      let s2 := (s1.wrMem a (auFld r.entry 4 0 32) data).pushSync st r.entry
      let e := BitVec.ofNat 512 (putBits (putBits r.entry.toNat 64 64 a) 0 8 0x02)
      let s3 := s2.ingFrame st (auFld r.entry 16 0 32) (auFld r.entry 24 0 64) []
      { s3 with ing := { s3.ing with toDecoder := Tab.write (fun _ => []) s3.ing.toDecoder st (Tab.read (fun _ => []) s3.ing.toDecoder st ++ [e]) } }

/-- The decision of R73 for a held unit: admit it, drop it alone, or drop it and keep dropping. -/
def bpAdmits (bp irap : Bool) : Bool := !bp && irap

/-- The packets of a unit just admitted, delivered into it, each after the losses noted before it. -/
def State.feedHeld (s : State) (st : Nat) : List Packet → State
  | [] => s
  | p :: t => State.feedHeld ((s.updIn st (fun x => { x with lostRun := p.lost })).deliverPkt st p) st t

/-- BP_DECISION_AT_VCL_HEADER (R73): whether the held unit is an IDR or IRAP picture and whether it is a reference. -/
def State.bpDecision (s : State) (st : Nat) (irap ref : Bool) : State :=
  match (s.inS st).pushHeld with
  | some r =>
    let s1 := s.updIn st (fun x => { x with pushHeld := none })
    if bpAdmits r.bp irap then (s1.updIn st (fun x => { x with dropping := false })).pushAdmit st r.entry
    else (s1.updIn st (fun x => { x with dropping := x.dropping || ref })).pushDrop st r.entry
  | none =>
    match (s.inS st).au with
    | none => s
    | some a =>
      if a.noBuf && !ref then s.updIn st (fun x => { x with dropping := false, au := some { a with noBuf := false } })
      else if !a.held then s
      else if bpAdmits a.bp irap then
        let run := (s.inS st).lostRun
        let s1 := (s.updIn st (fun x => { x with dropping := false, lostRun := 0 })).auAdmit st a
        ((s1.feedHeld st a.heldPkts).updIn st (fun x => { x with lostRun := run })).storeLevels
      else
        let ended := a.marked
        let s1 := s.updIn st (fun x => { x with dropping := x.dropping || ref,
                                                au := if ended then none else some { a with held := false, heldPkts := [], dropped := true } })
        (s1.dropUnit st a.stamp a.tb 0x05).storeLevels

/-! ### Stream state (R51) -/

/-- Ingress's view of the packets of a stream that starts or has returned to idle: no number expected, nothing waiting; the buffer of a unit in progress returns (log entry 86). -/
def State.freshPackets (s : State) (st : Nat) : State :=
  let x := s.inS st
  let s1 := match x.au with
    | some a => if a.held || a.dropped then s else s.giveUp (s.stPart st) (s.ingHolder st) a.handle
    | none => s
  (s1.updIn st (fun y => { y with expect := none, waiting := [], lostRun := 0, au := none })).storeLevels

/-- STREAM_START (R51, R445): an idle stream runs; a CSI-2 stream reserves its line ring, or ends with NO_RESOURCE 0x07. Result code of Table 14.12. -/
def State.streamStart (s : State) (st : Nat) : State × Nat :=
  let run := fun (x : State) => (x.setFld (Reg.ingStrmState st) 0 2 1).updIn st (fun y => { y with resume := y.seen })
  if s.stRun st ≠ 0 then (s, 0x06)
  else if s.stSource st ≠ 0 then (run (s.freshPackets st), 0)
  else match s.tryReserve (s.stPart st) (s.ingHolder st) [(s.stPool st, 1)] with
    | some (s1, h :: _) =>
      (run (s1.updIn st (fun y => { y with ring := some h, relBase := s1.syncVal (s1.stReleased st) })), 0)
    | _ =>
      (if s.stClassS st then (s.refuseS (s.stPart st) (s.ingHolder st) (s.stPool st)).csiErr (s.stPort st) 7 (some st) else s, 0x07)

/-- The partition's class S part of FAULT_N may end with the stop of its last running stream (R318). -/
def State.noteStopped (s : State) (p : Nat) : State :=
  if s.processing p && !(s.hasRunning p) then s.noteVerified p else s

/-- STREAM_STOP (R51): a running stream is stopping. -/
def State.streamStop (s : State) (st : Nat) : State × Nat :=
  if s.stRun st ≠ 1 then (s, 0x06)
  else (((s.setFld (Reg.ingStrmState st) 0 2 2).noteStopped (s.stPart st)).settleFaultN, 0)

/-- STREAM_RETURN_IDLE (R51): the line ring returns to its pool. -/
def State.streamIdle (s : State) (st : Nat) : State :=
  if s.stRun st ≠ 2 then s
  else
    let s0 := s.freshPackets st
    let s1 := match (s.inS st).ring with
      | some h => s0.giveUp (s.stPart st) (s.ingHolder st) h
      | none => s0
    (s1.updIn st (fun x => { x with ring := none, csi := none, resume := x.seen })).setFld (Reg.ingStrmState st) 0 2 0

end Sys2Proof.Machine
end

