-- ==== Sys2Proof/Machine/Decoder.lean ====
section
/-!
DEFINITION. The decode engines: pictures, block rows, deficit round robin, concealment, dual decoding (R76 to R98).
-/
namespace Sys2Proof

open Machine

/-- Bytes of a sample. -/
def PicInfo.bps (i : PicInfo) : Nat := if i.format = 1 then 2 else 1

/-- Bytes of a line's samples. -/
def PicInfo.lineLen (i : PicInfo) : Nat := i.codedW.toNat * i.bps

/-- Stride: the line rounded up to 256 bytes. -/
def PicInfo.stride (i : PicInfo) : Nat := ceilDiv i.lineLen 256 * 256

/-- Block row height. -/
def PicInfo.rowH (i : PicInfo) : Nat := max 1 i.rowHeight.toNat

/-- Block rows R. -/
def PicInfo.rows (i : PicInfo) : Nat := ceilDiv i.codedH.toNat i.rowH

/-- Plane height. -/
def PicInfo.planeH (i : PicInfo) : Nat := i.rows * i.rowH

/-- chroma_offset; 0 for greyscale (log entry 14). -/
def PicInfo.chromaOff (i : PicInfo) : Nat := if i.format = 4 then 0 else 0x1000 + i.stride * i.planeH

/-- The planes: offset, lines of one block row, output lines. -/
def PicInfo.planes (i : PicInfo) : List (Nat × Nat × Nat) :=
  let h := i.rowH
  let out := i.height.toNat
  let co := i.chromaOff
  (0x1000, h, out) :: (match i.format.toNat with
    | 0 => [(co, h / 2, ceilDiv out 2)]
    | 1 => [(co, h / 2, ceilDiv out 2)]
    | 2 => [(co, h, out)]
    | 3 => [(co, h, out), (co + i.stride * i.planeH, h, out)]
    | _ => [])

/-- Bytes of a whole picture buffer. -/
def PicInfo.bytes (i : PicInfo) : Nat :=
  i.planes.foldl (fun n p => max n (p.1 + i.stride * (p.2.1 * i.rows))) 0x1000

/-- A picture that a stream can resume at: IDR or IRAP, or JPEG (R78, R92). -/
def PicInfo.resumes (i : PicInfo) : Bool := i.picType == 0 || i.picType == 3

end Sys2Proof

namespace Sys2Proof.Machine

/-- What a decoder keeps of a stream. -/
def State.decS (s : State) (st : Nat) : DecStream := Tab.read (fun _ => {}) s.dec.strm st

/-- What a decoder keeps of a stream, changed. -/
def State.updDec (s : State) (st : Nat) (f : DecStream → DecStream) : State :=
  { s with dec := { s.dec with strm := Tab.write (fun _ => {}) s.dec.strm st (f (s.decS st)) } }

/-- The picture in progress changed. -/
def State.updPic (s : State) (st : Nat) (f : Picture → Picture) : State :=
  s.updDec st (fun x => { x with pic := x.pic.map f })

/-- An event of a decode engine (Table 19.1: detail stream and cause). -/
def State.decEvent (s : State) (b st cause : Nat) : State :=
  s.raise { idx := 3, unit := s.stDecoder st, bit := b, part := some (s.stPart st), detail := st + cause <<< 8 }

/-- A decoder STREAM_STATUS record (Table 4.7), with the flags of the picture it concerns (Table 10.4). -/
def State.decRec (s : State) (st kind cause counter ts detail : Nat) (ranges : List (Nat × Nat)) : Rec :=
  let d := s.stDecoder st
  let fl := match (s.decS st).last with | some p => if p.counter = counter then p.flags else 0 | none => 0
  let v := kind + cause <<< 8 + (d + (d ^^^ 1) <<< 2) <<< 16 + ranges.length <<< 24 + counter <<< 32
    + (detail % 65536) <<< 64 + rangeBits ranges 96
  let b : Blob := { len := 24, val := v }
  { s.blankRec st with typ := 0x09, kind := kind, counter := counter, ts := ts, concealed := fl.testBit 0, concealedRef := fl.testBit 1, body := b }

/-- The record handed over. -/
def State.decStatus (s : State) (st kind cause counter ts detail : Nat) (ranges : List (Nat × Nat)) : State :=
  s.handRec (10 + s.stDecoder st) (s.decRec st kind cause counter ts detail ranges)

/-- The last records of a decoder for a frame, or its mark (R240). -/
def State.decFrame (s : State) (st counter ts : Nat) (l : List Rec) : State := s.handFrame st (10 + s.stDecoder st) counter ts l

/-- A plain report: no detail, no ranges. -/
def State.decReport (s : State) (st kind cause counter ts : Nat) : State := s.decStatus st kind cause counter ts 0 []

/-- The holder names of a decoder and of a front end (R260). -/
def decHolder (d : Nat) : Nat := holderName 3 d
/-- The holder name of a front end. -/
def pfeHolder (f : Nat) : Nat := holderName 5 f

/-- DEC_STRM_STATE.state: 0 idle, 1 decoding, 2 RESYNC, 3 UNSUPPORTED. -/
def State.decState (s : State) (st : Nat) : Nat := s.fld (Reg.decStrmState st) 0 3
/-- The state set. -/
def State.setDecState (s : State) (st v : Nat) : State := s.setFld (Reg.decStrmState st) 0 3 v
/-- References held shown. -/
def State.showRefs (s : State) (st : Nat) : State := s.setFld (Reg.decStrmState st) 4 5 (s.decS st).refs.length

/-- The row sync object of a stream (DEC_STRM_CFG). -/
def State.rowSync (s : State) (st : Nat) : Nat := s.fld (Reg.decStrmCfg st) 16 16
/-- The output pool of a stream. -/
def State.outPool (s : State) (st : Nat) : Nat := s.fld (Reg.decStrmCfg st) 0 16
/-- Is the stream decoded twice (R96)? -/
def State.decDual (s : State) (st : Nat) : Bool := s.stDual st && s.stClassS st

/-! ### Picture layout (R81) -/



/-- `n` lines of `lb` bytes written at a stride. -/
def State.wrLines (s : State) (a stride lb : Nat) : Nat → Nat → State
  | 0, _ => s
  | n + 1, v => State.wrLines (s.wrMem a lb v) (a + stride) stride lb n (v >>> (8 * lb))

/-- Samples as a buffer holds them: a 10-bit sample in bits [15:6] of its container, bits [5:0] zero (R81). -/
def containers (i : PicInfo) (b : Blob) : Nat :=
  if i.format = 1 then b.val &&& ((2 ^ (16 * (b.len / 2)) - 1) / 0xFFFF * 0xFFC0) else b.val

/-- The lines of block row `n` written to a buffer: luma, then chroma (R81). -/
def State.wrRow (s : State) (i : PicInfo) (buf n : Nat) (r : RowData) : State :=
  match i.planes with
  | [] => s
  | l :: cs =>
    let s1 := s.wrLines (buf + l.1 + i.stride * (n * l.2.1)) i.stride i.lineLen l.2.1 (containers i r.luma)
    (cs.foldl (fun (x : State × Nat) c =>
      (x.1.wrLines (buf + c.1 + i.stride * (n * c.2.1)) i.stride i.lineLen c.2.1 x.2, x.2 >>> (8 * i.lineLen * c.2.1)))
      (s1, containers i r.chroma)).1

/-- A line of mid-grey samples (R82). -/
def greyLine (i : PicInfo) : Nat :=
  if i.format = 1 then loopUp i.codedW.toNat (fun k v => v + 0x8000 <<< (16 * k)) 0
  else loopUp i.codedW.toNat (fun k v => v + 128 <<< (8 * k)) 0

/-- Lines copied from `src` to `dst` at one stride. -/
def State.copyLines (s : State) (src dst step lb : Nat) : Nat → State
  | 0 => s
  | n + 1 => State.copyLines (s.wrMem dst lb (s.rdMem src lb)) (src + step) (dst + step) step lb n

/-- Every line of a block row set to one content, or to the line above it. -/
def State.fillRow (s : State) (i : PicInfo) (buf n : Nat) (grey : Bool) : State :=
  i.planes.foldl (fun x p =>
    let a := buf + p.1 + i.stride * (n * p.2.1)
    let v := if grey then greyLine i else x.rdMem (a - i.stride) i.lineLen
    loopUp p.2.1 (fun k y => y.wrMem (a + i.stride * k) i.lineLen v) x) s

/-- A block row copied from the same place of a reference. -/
def State.copyRow (s : State) (i : PicInfo) (ref buf n : Nat) : State :=
  i.planes.foldl (fun x p =>
    let o := p.1 + i.stride * (n * p.2.1)
    x.copyLines (ref + o) (buf + o) i.stride i.lineLen p.2.1) s

/-- The row status byte of row `n` (Table 4.5). -/
def State.rowStatus (s : State) (buf n : Nat) : Nat := (s.rdByte (buf + 0x40 + n)).toNat

/-- The reference whose order count is closest to `poc`, the earlier on a tie (R89). -/
def nearestRef (refs : List RefPic) (poc : Nat) : Option RefPic :=
  let p := sint 32 poc
  refs.foldl (fun acc r =>
    match acc with
    | none => some r
    | some b =>
      let db := (sint 32 b.poc - p).natAbs
      let dr := (sint 32 r.poc - p).natAbs
      if dr < db ∨ (dr = db ∧ sint 32 r.poc < sint 32 b.poc) then some r else some b) none

/-- Row `n` of a buffer concealed (R89): from the nearest reference in a P or B picture, else the last good line above, else mid-grey; its status byte says how. -/
def State.concealRow (s : State) (i : PicInfo) (ref : Option Nat) (buf n : Nat) (extra : Nat) : State :=
  let p := i.picType == 1 || i.picType == 2
  match (if p then ref else none) with
  | some r => (s.copyRow i r buf n).wrByte (buf + 0x40 + n) (BitVec.ofNat 8 (0x07 + extra))
  | none =>
    let grey := p || decide (n = 0) || (s.rowStatus buf (n - 1)).testBit 3
    (s.fillRow i buf n grey).wrByte (buf + 0x40 + n) (BitVec.ofNat 8 ((if grey then 0x0B else 0x13) + extra))

/-! ### CRCs (R83, R96) -/

/-- CRC-32C over `n` bytes of memory. -/
def State.crcMem (s : State) : Nat → Nat → Nat → Nat
  | 0, _, c => c
  | n + 1, a, c => State.crcMem s n (a + 1) (crc32cByte c (s.rdByte a).toNat)

/-- CRC-32C over lines `lo` to `hi` − 1 of a plane. -/
def State.crcLines (s : State) (i : PicInfo) (a lo hi c : Nat) : Nat :=
  loopUp (hi - lo) (fun k x => s.crcMem (i.width.toNat * i.bps) (a + i.stride * (lo + k)) x) c

/-- picture_crc (R83): the output lines of luma, then of the chroma data. -/
def State.pictureCrc (s : State) (i : PicInfo) (buf : Nat) : Nat :=
  crc32cEnd (i.planes.foldl (fun c p => s.crcLines i (buf + p.1) 0 p.2.2 c) 0xFFFFFFFF)

/-- The CRC of the lines that become final with row `n` (R85, R96): those of row `n` − 1, and with the last row its own. -/
def State.rowCrc (s : State) (i : PicInfo) (buf n : Nat) : Nat :=
  crc32cEnd (i.planes.foldl (fun c p =>
    let hi := if n + 1 = i.rows then p.2.2 else min p.2.2 (n * p.2.1)
    s.crcLines i (buf + p.1) ((n - 1) * p.2.1) hi c) 0xFFFFFFFF)

/-! ### Buffers, notices, skips -/

/-- Buffers that are no reference and that the front end has dropped are freed (R84). -/
def State.decSettle (s : State) (st : Nat) : State :=
  let me := decHolder (s.stDecoder st)
  let x := s.decS st
  let free := x.done.filter (fun h => decide ((s.buf (hIdx h)).holders = [me]))
  (free.foldl (fun (y : State) h => y.giveUp (y.stPart st) me h) s).updDec st (fun y =>
    { y with done := y.done.filter (fun h => !(free.contains h)) })

/-- Pictures that leave the stream's picture buffer. -/
def State.retire (s : State) (st : Nat) (out : List RefPic) : State :=
  let s1 := s.updDec st (fun x => { x with done := x.done ++ out.map (fun r => r.handle) })
  let s2 := out.foldl (fun y r => match r.chk with
    | some h => y.giveUp (y.stPart st) (decHolder (y.stDecoder st)) h
    | none => y) s1
  (s2.decSettle st).showRefs st

/-- Every reference released: end_of_stream, a mismatch, a stop (R84, R97, R51). -/
def State.releaseRefs (s : State) (st : Nat) : State :=
  let out := (s.decS st).refs
  (s.updDec st (fun x => { x with refs := [], maxPoc := none })).retire st out

/-- Notices that an engine holds for a front end (R84). -/
def State.noticesHeld (s : State) (d f : Nat) : Nat :=
  (s.dec.notices.filter (fun n => decide (n.engine = d) && decide (s.stFrontEnd n.stream = f))).length

/-- A notice sent to the stream's front end. -/
def State.notice (s : State) (n : FeNotice) : State := { s with dec := { s.dec with notices := s.dec.notices ++ [n] } }

/-- A unit that is not decoded, with its report as the decoder's last record of the frame, and a notice with skipped (R84, R94). -/
def State.skipWith (s : State) (st kind cause counter ts : Nat) : State :=
  ((s.bump (Reg.decStrmSkipped st) 1).decFrame st counter ts [s.decRec st kind cause counter ts 0 []]).notice
    { engine := s.stDecoder st, stream := st, handle := none, counter := counter, ts := ts, skipped := true }

/-- An access unit skipped (R84, R94): counted, reported in the decoder's last record of the frame, and a notice with skipped. -/
def State.decSkip (s : State) (st cause counter ts : Nat) : State :=
  s.skipWith st 0x23 cause counter ts

/-- The budget of a picture in ns; 0 means one period (R92). -/
def State.budget (s : State) (st : Nat) : Nat :=
  let b := s.strmFld st 32 0 32
  if b = 0 then s.stPeriod st else b

/-- The handle of an access unit's buffer. -/
def State.auHandle (s : State) (st : Nat) (e : Desc64) : Nat :=
  let k := s.stPool st
  mkHandle k (s.pFirst k + (auFld e 8 0 64 - s.pBase k) / max 1 (s.pBufSize k))

/-! ### Deficit round robin (R87) -/

/-- Is the engine the checker of a stream? -/
def State.checks (s : State) (st d : Nat) : Bool := s.decDual st && decide (s.stDecoder st ^^^ 1 = d)

/-- Streams with a block row ready at an engine, in stream order. -/
def State.readyRows (s : State) (d : Nat) : List Nat :=
  (s.dec.strm.filter (fun e => match e.2.pic with
    | some p => (decide (s.stDecoder e.1 = d) && decide (p.row < p.rows)) || (s.checks e.1 d && decide (p.chkRow < p.rows) && p.chk.isSome)
    | none => false)).map (fun e => e.1)

/-- A stream's deficit at an engine. -/
def State.credit (s : State) (st d : Nat) : Int := if s.checks st d then (s.decS st).credit2 else (s.decS st).credit

/-- A stream's deficit set. -/
def State.setCredit (s : State) (st d : Nat) (v : Int) : State :=
  s.updDec st (fun x => if s.checks st d then { x with credit2 := v } else { x with credit := v })

/-- A stream's refill: weight × quantum in ns. -/
def State.refill (s : State) (st : Nat) : Int :=
  (max 1 (s.fld (Reg.decStrmWeight st) 0 8) * clampNat 10 255 (s.fld Reg.decCtrl 16 8) * 1000 : Nat)

/-- Refill rounds until a stream's deficit lies above 0. -/
def State.rounds (s : State) (st d : Nat) : Nat :=
  if 0 < s.credit st d then 0 else ((-(s.credit st d)) / s.refill st + 1).toNat

/-- Every ready stream refilled `k` times (R87). -/
def State.refillAll (s : State) (d k : Nat) : List Nat → State
  | [] => s
  | st :: t =>
    State.refillAll (s.setCredit st d (min (s.credit st d + (k : Int) * s.refill st) (s.refill st))) d k t

/-- The first stream of a list after `last` in round-robin order that passes a test. -/
def rrPick (l : List Nat) (last : Option Nat) (ok : Nat → Bool) : Option Nat :=
  match (l.filter (fun x => last.elim true (fun y => decide (y < x)) && ok x)).head? with
  | some x => some x
  | none => (l.filter ok).head?

/-- The stream whose row the engine reconstructs next, and the state with the refills done. -/
def State.drrPick (s : State) (d : Nat) : Option (State × Nat) :=
  let l := s.readyRows d
  match l with
  | [] => none
  | a :: t =>
    let k := t.foldl (fun m x => min m (s.rounds x d)) (s.rounds a d)
    let s1 := if k = 0 then s else s.refillAll d k l
    (rrPick l (Tab.read (fun _ => none) s.dec.served d) (fun x => decide (0 < s1.credit x d))).map (fun st => (s1, st))

/-- The row that engine `d` reconstructs next of a stream. -/
def State.rowOf (s : State) (st d : Nat) : Nat :=
  match (s.decS st).pic with
  | some p => if s.checks st d then p.chkRow else p.row
  | none => 0

/-- The stream whose row an engine has in hand, while the stream still has a row to reconstruct. -/
def State.inHand (s : State) (d : Nat) : Option Nat :=
  (Tab.read (fun _ => none) s.dec.serving d).filter (fun st => (s.readyRows d).contains st)

/-- The stream in hand of an engine set. -/
def State.setServing (s : State) (d : Nat) (o : Option Nat) : State :=
  { s with dec := { s.dec with serving := Tab.write (fun _ => none) s.dec.serving d o } }

/-- The stream whose row the entropy island parses while the engine reconstructs a row of `st`: the next of the same order, as if that row cost nothing (R87; log entry 96). -/
def State.entropyNext (s : State) (d st : Nat) : Option Nat :=
  let ahead := s.updPic st (fun p => if s.checks st d then { p with chkRow := p.chkRow + 1 } else { p with row := p.row + 1 })
  (ahead.drrPick d).map (fun x => x.2)

/-- An engine with no row in hand takes the next one that deficit round robin names, and shows it and what its entropy island parses in DEC_STATUS; with none ready it shows idle (R87). -/
def State.beginRow (s : State) (d : Nat) : State :=
  if (s.inHand d).isSome then s
  else match s.drrPick d with
    | none => (s.setServing d none).setFld (Reg.decStatus d) 0 2 0
    | some (s1, st) =>
      let s2 := { s1 with dec := { s1.dec with served := Tab.write (fun _ => none) s1.dec.served d (some st) } }
      let ent := match s2.entropyNext d st with | some x => 1 + x <<< 2 | none => 0
      (s2.setServing d (some st)).setFld (Reg.decStatus d) 0 23 (ent + 2 + st <<< 8 + s.rowOf st d <<< 14)

/-- The engines that decode a stream take their next rows. -/
def State.beginRows (s : State) (st : Nat) : State :=
  let s1 := s.beginRow (s.stDecoder st)
  if s.decDual st then s1.beginRow (s.stDecoder st ^^^ 1) else s1

/-- The row in hand of an engine ends after `t` ns: its cost charged, the busy time counted (R87). -/
def State.chargeRow (s : State) (d st t : Nat) : State :=
  ((s.setServing d none).setCredit st d (s.credit st d - (t : Int))).bump64 (Reg.decBusyNs d) t

/-! ### Taking an access unit (R77 to R79, R81, R90 to R93, R95) -/


/-- The cause by which a picture's parameter sets are refused, if any: a feature of Table 4.2 or too many references, or its size (R77, R78, R95; log entry 42). -/
def State.refusal (s : State) (st : Nat) (i : PicInfo) : Option Nat :=
  if !i.supported || 16 < i.needRefs then some 0x08
  else if i.codedW.toNat < 64 || 4096 < i.codedW.toNat || i.codedH.toNat < 64 || 2304 < i.codedH.toNat
      || decide (i.width.toNat ≠ s.stWidth st) || decide (i.height.toNat ≠ s.stHeight st)
      || decide (s.pBufSize (s.outPool st) < i.bytes) then some 0x09
  else none

/-- A unit whose parameter sets are refused: UNSUPPORTED is entered and reported (R78, R95, Table 4.8); a stream that stands in the state already skips the unit. -/
def State.unsupported (s : State) (st cause counter ts : Nat) : State :=
  if s.decState st = 3 then s.skipWith st 0x23 cause counter ts
  else (((s.setDecState st 3).updDec st (fun x => { x with resync := cause })).decEvent 1 st cause).skipWith st 0x24 cause counter ts

/-- The flags that a picture starts with (Table 4.4): 1 concealed_ref, 2 missing_ref, 4 suppress, 5 out_of_order, 6 reference, 7 grey_substitute. -/
def startFlags (cref miss sup ooo isRef grey : Bool) : Nat :=
  2 * b2n cref + 4 * b2n miss + 16 * b2n sup + 32 * b2n ooo + 64 * b2n isRef + 128 * b2n grey

/-- Bytes 0 to 31 of the picture descriptor (Table 4.4). -/
def State.descHead (s : State) (st : Nat) (p : Picture) : Nat :=
  let i := p.info
  let d := s.stDecoder st
  st + (i.format.toNat + i.picType.toNat <<< 4) <<< 8 + (d + (d ^^^ 1) <<< 2 + b2n (s.decDual st) <<< 4) <<< 16
    + i.rowH <<< 24 + i.width.toNat <<< 32 + i.height.toNat <<< 48 + i.planeH <<< 64 + p.rows <<< 80
    + i.stride <<< 96 + (p.flags % 65536) <<< 112 + p.counter <<< 128 + i.chromaOff <<< 160 + p.ts <<< 192

/-- References that are named and absent (R91). -/
def missingRefs (x : DecStream) (i : PicInfo) : List (BitVec 32) :=
  i.refs.filter (fun p => !(x.refs.any (fun r => decide (r.poc = p.toNat))))

/-- A picture begins in its reserved buffers: the end of RESYNC or UNSUPPORTED reported with the cause of that state, substitutes, inheritance, order, notice, head of the descriptor (R79, R81, R84, R90, R91, R94; log entry 37). -/
def State.beginPicture (s : State) (st : Nat) (e : Desc64) (i : PicInfo) (h : Nat) (chk : Option Nat) (tb : Nat) : State :=
  let x0 := s.decS st
  let counter := auFld e 16 0 32
  let ts := auFld e 24 0 64
  let s0 := if i.picType = 0 ∧ i.keep = [] then s.releaseRefs st else s
  let x := s0.decS st
  let miss := missingRefs x i
  let sub := miss.any (fun p => (nearestRef x.refs p.toNat).elim false (fun r => r.tainted))
  let cref := sub || x.refs.any (fun r => r.tainted && i.refs.any (fun p => decide (p.toNat = r.poc)))
  let ooo := match x.maxPoc with
    | some m => decide (sint 32 i.poc.toNat < m) && !i.resumes
    | none => false
  let sup := s.strmFld st 36 1 1 == 1 && (cref || !miss.isEmpty)
  let pic : Picture := { info := i, handle := h, chk := chk, counter := counter, ts := ts, start := tb, rows := i.rows, flags := startFlags cref (!miss.isEmpty) sup ooo i.isRef (!miss.isEmpty && x.refs.isEmpty), tainted := cref || !miss.isEmpty, eos := auFld e 2 2 1 == 1 }
  let s1 := s0.updDec st (fun y => { y with
    pic := some pic, wait := none, resync := 0,
    raslSkip := if i.picType = 0 then i.cra && (x0.refs.isEmpty || decide (x0.resync ≠ 0)) else y.raslSkip,
    maxPoc := if i.picType = 0 then some (sint 32 i.poc.toNat) else some (max (y.maxPoc.getD (sint 32 i.poc.toNat)) (sint 32 i.poc.toNat)),
    last := some { counter := counter, ts := ts, flags := pic.flags, handle := h, base := s.syncVal (s.rowSync st), info := i } })
  let left := s.decState st = 2 ∨ s.decState st = 3
  let s1a := if left then s1.decReport st 0x26 (if x0.resync = 0 then 0x05 else x0.resync) counter ts else s1
  let s2 := miss.foldl (fun z p => ((z.bump (Reg.decStrmMissingRef st) 1).decEvent 2 st 0x04).decStatus st 0x20 0x04 counter ts p.toNat []) s1a
  let s3 := if cref && !x.inhRun then (s2.updDec st (fun y => { y with inhRun := true })).decReport st 0x21 0x0D counter ts else s2
  let s4 := if sup then s3.decReport st 0x27 (if cref then 0x0D else 0x04) counter ts else s3
  let s5 := if ooo then (s4.decEvent 6 st 0x0B).decReport st 0x23 0x0B counter ts else s4
  let s6 := s5.setFld (Reg.decStrmState st) 3 1 (b2n (s5.decS st).inhRun)
  let s7 := s6.wrMem (s6.bufAddr h) 32 (s6.descHead st pic)
  let s8 := (s7.share (s.stPart st) (decHolder (s.stDecoder st)) h (pfeHolder (s.stFrontEnd st)) (decHolder (s.stDecoder st))).1
  let s9 := s8.notice { engine := s.stDecoder st, stream := st, handle := some h, base := s.syncVal (s.rowSync st), rows := i.rows, counter := counter, ts := ts, flags := pic.flags, resumed := decide (s.decState st = 2), info := some i }
  let pair := s.stDecoder st / 2
  let win := Tab.read (fun _ => none) s.dec.pairWin pair
  let s10 := if s.decDual st then
      { s9 with dec := { s9.dec with pairWin := Tab.write (fun _ => none) s9.dec.pairWin pair (match win with | some n => if n < 100 then some (n + 1) else none | none => none) } }
    else s9
  s10.setDecState st 1

/-- The buffers of a picture reserved, whole or not (R81, R96). -/
def State.reservePic (s : State) (st : Nat) : Option (State × Nat × Option Nat) :=
  let me := decHolder (s.stDecoder st)
  match s.tryReserve (s.stPart st) me [(s.outPool st, if s.decDual st then 2 else 1)] with
  | some (s1, h :: rest) => some (s1, h, rest.head?)
  | _ => none

/-- A picture that cannot be decoded for want of a buffer (R93). -/
def State.noBuffer (s : State) (st : Nat) (i : PicInfo) (counter ts : Nat) : State :=
  let s1 := (s.updDec st (fun x => { x with wait := none })).decEvent 5 st 0x07
  let s2 := s1.decSkip st 0x07 counter ts
  if i.isRef then (s2.setDecState st 2).updDec st (fun x => { x with resync := 0x07 }) else s2

/-- A unit that is to be decoded: its buffer reserved, waited for in class F, refused in class S (R81, R93, R74). -/
def State.takePicture (s : State) (st : Nat) (e : Desc64) (i : PicInfo) : State :=
  let counter := auFld e 16 0 32
  let ts := auFld e 24 0 64
  match s.reservePic st with
  | some (s1, h, chk) => s1.beginPicture st e i h chk s.now
  | none =>
    let me := decHolder (s.stDecoder st)
    if s.stClassS st then (s.refuseS (s.stPart st) me (s.outPool st)).noBuffer st i counter ts
    else
      let w : Waiting := { tag := s.stPart st, holder := me, pairs := [(s.outPool st, if s.decDual st then 2 else 1)], tb := s.now, push := some st }
      let s1 := s.updDec st (fun x => { x with wait := some { entry := e, info := i, tb := s.now } })
      { (s1.bump (Reg.poolStat (s.outPool st) + 0xC) 1) with pool := { s1.pool with waiting := s1.pool.waiting ++ [w] } }

/-- An access unit by the stream's state (R78, R90, R92). -/
def State.decodeUnit (s : State) (st : Nat) (e : Desc64) (i : PicInfo) : State :=
  let counter := auFld e 16 0 32
  let ts := auFld e 24 0 64
  let state := s.decState st
  let x := s.decS st
  if (state = 3 ∨ state = 2) ∧ !i.resumes then s.decSkip st (if x.resync = 0 then 0x05 else x.resync) counter ts
  else match s.refusal st i with
    | some c => s.unsupported st c counter ts
    | none =>
      if i.rasl && x.raslSkip then s.decSkip st 0x0C counter ts
      else s.takePicture st e i

/-- The next access unit of a stream, from ingress or from host push, taken off its queue (R70, R81). -/
def State.takeUnit (s : State) (st : Nat) : State × Option Desc64 :=
  match Tab.read (fun _ => []) s.ing.toDecoder st with
  | e :: t => ({ s with ing := { s.ing with toDecoder := Tab.write (fun _ => []) s.ing.toDecoder st t } }, some e)
  | [] =>
    if s.stSource st = 3 then (s, none)
    else match s.readHead (s.stQueue st) with
      | (s1, some v) => (s1.dequeue (s.stQueue st), some (BitVec.ofNat 512 v))
      | (s1, none) => (s1, none)

/-- The decoder flushes (R84, R51): every reference released, the stream idle. -/
def State.decFlush (s : State) (st : Nat) : State :=
  (((s.releaseRefs st).setDecState st 0).setFld (Reg.decStrmState st) 3 1 0).updDec st (fun x =>
    { x with inhRun := false, raslSkip := false, resync := 0 })

/-- Is the path of the stream's notices full (R84)? -/
def State.noticesFull (s : State) (st : Nat) : Bool := decide (8 ≤ s.noticesHeld (s.stDecoder st) (s.stFrontEnd st))

/-- PICTURE_START (R81): the decoder of stream `st` takes its next access unit, whose picture header reads as `i`. Nothing happens while a picture of the stream is in progress or waits, or the notice path is full (R84). -/
def State.pictureStart (s : State) (st : Nat) (i : PicInfo) : State :=
  if !(s.stValid st) || 64 ≤ st || (s.decS st).pic.isSome || (s.decS st).wait.isSome || s.noticesFull st then s
  else match s.takeUnit st with
    | (s1, none) => s1
    | (s1, some e) =>
      let s2 := s1.giveUp (s.stPart st) (s.ingHolder st) (s.auHandle st e)
      if auFld e 4 0 32 = 0 ∧ auFld e 2 2 1 = 1 then (s2.decFrame st (auFld e 16 0 32) (auFld e 24 0 64) []).decFlush st
      else
        let s3 := s2.decodeUnit st e i
        if auFld e 2 2 1 = 1 ∧ (s3.decS st).pic.isNone ∧ (s3.decS st).wait.isNone then s3.decFlush st else s3.beginRows st

/-! ### Completing a picture -/

/-- Concealed rows as at most three ranges (R94). -/
def badRanges (l : List Nat) : List (Nat × Nat) := mergeRanges 3 (toRanges l)

/-- The reports of a picture's concealment, one per cause with its rows, and of its abandonment (R94, Table 4.8). Rows of a class S row limit bear ROW_LIMIT, those that a mismatch conceals DUAL_MISMATCH. -/
def State.picReports (s : State) (st : Nat) (p : Picture) : List Rec :=
  let of := fun (c : Nat) => (p.bad.filter (fun x => decide (x.2 = c))).map (fun x => x.1)
  let rep := fun (c : Nat) => if (of c).isEmpty then [] else [s.decRec st 0x20 c p.counter p.ts 0 (badRanges (of c))]
  rep 1 ++ rep 2 ++ rep 3 ++ rep 6 ++ rep 10 ++ (match p.abandon with
    | some (c, r) => [s.decRec st 0x22 c p.counter p.ts r (badRanges (of 0))]
    | none => [])

/-- The buffers that leave with a completed picture, and the new picture buffer. -/
def keepRefs (x : DecStream) (p : Picture) (tainted : Bool) : List RefPic × List RefPic :=
  let me : RefPic := { poc := p.info.poc.toNat, handle := p.handle, chk := p.chk, tainted := tainted }
  let stay := x.refs.filter (fun r => p.info.keep.any (fun k => decide (k.toNat = r.poc)))
  let out := x.refs.filter (fun r => !(p.info.keep.any (fun k => decide (k.toNat = r.poc))))
  if p.info.isRef then (stay ++ [me], out) else (stay, out ++ [me])

/-- The last row is done: the descriptor is completed (R82), the counters move, the picture buffer and the stream's state follow (R84, R90, R92); the decoder's last record of the frame, or its mark (R240, log entry 36). -/
def State.endPicture (s : State) (st : Nat) (p : Picture) : State :=
  let dirty := !p.bad.isEmpty || p.abandon.isSome
  let flags := p.flags ||| b2n dirty ||| (if p.abandon.isSome then 8 else 0)
  let p1 := { p with flags := flags }
  let buf := s.bufAddr p.handle
  let crc := s.pictureCrc p.info buf
  let tail := p.start + (s.now) <<< 64 + p.info.poc.toNat <<< 128 + crc <<< 160 + p.bad.length <<< 192
  let s1 := (s.wrMem buf 32 (s.descHead st p1)).wrMem (buf + 32) 32 tail
  let s2 := ((s1.bump (Reg.decStrmPics st) 1).wr (Reg.decStrmLastCounter st) p.counter).wr (Reg.decStrmLastCrc st) crc
  let s3 := s2.wr64 (Reg.decStrmLastTime st) (s.now - p.start)
  let s4 := if p.abandon.isSome then s3.bump (Reg.decStrmAbandoned st) 1 else s3
  let s5 := s4.updDec st (fun x => { x with last := x.last.map (fun y => { y with flags := flags }) })
  let irap := decide (p.info.picType = 0 ∧ !dirty ∧ !p.tainted)
  let clean := irap && (s5.decS st).inhRun
  let recs := s5.picReports st p ++ (if clean then [s5.decRec st 0x26 0x0D p.counter p.ts 0 []] else [])
  let s6 := (s5.decFrame st p.counter p.ts recs).updDec st (fun x => { x with
    inhRun := x.inhRun && !clean, refs := if irap then x.refs.map (fun r => { r with tainted := false }) else x.refs })
  let kr := keepRefs (s6.decS st) p (p.tainted || dirty)
  let s7 := (s6.updDec st (fun x => { x with pic := none, refs := kr.1 })).retire st kr.2
  let s8 := match p.abandon with
    | some (c, _) => (s7.setDecState st 2).updDec st (fun x => { x with resync := c })
    | none => s7
  let s9 := s8.setFld (Reg.decStrmState st) 3 1 (b2n (s8.decS st).inhRun)
  if p.eos then s9.decFlush st else s9

/-- One row signalled: the last one after the whole descriptor is written (R82, R85). -/
def State.signalRow (s : State) (st : Nat) : State :=
  match (s.decS st).pic with
  | none => s
  | some p =>
    let p1 := { p with signalled := p.signalled + 1 }
    let s1 := s.updDec st (fun x => { x with pic := some p1 })
    let s2 := if p1.signalled = p.rows then s1.endPicture st p1 else s1
    s2.signal (s.rowSync st) 1

/-! ### Block rows (R85, R86, R88 to R92) -/

/-- Row `n` of the primary's or the checker's buffer written or concealed; each engine counts its pixels and its concealed rows, the stream those of the primary. From the first abandoned row on every row is concealed (R92). -/
def State.putRow (s : State) (st : Nat) (p : Picture) (chk : Bool) (n : Nat) (r : RowData) (forced : Option Nat) : State :=
  let h := if chk then p.chk.getD p.handle else p.handle
  let d := if chk then s.stDecoder st ^^^ 1 else s.stDecoder st
  let buf := s.bufAddr h
  let near := nearestRef (s.decS st).refs p.info.poc.toNat
  let ref := near.map (fun x => s.bufAddr (if chk then x.chk.getD x.handle else x.handle))
  let gone := p.abandon.elim false (fun a => decide (a.2 ≤ n))
  let extra := if gone then 32 else 0
  let cause := match forced with
    | some c => some c
    | none => if gone then some 0 else r.lost.map (fun c => c.val)
  match cause with
  | none => ((s.wrRow p.info buf n r).wrByte (buf + 0x40 + n) 1).bump64 (Reg.decPixCnt d) (p.info.codedW.toNat * min p.info.rowH (p.info.codedH.toNat - n * p.info.rowH))
  | some c =>
    let s1 := (s.concealRow p.info ref buf n extra).bump (Reg.decRowsConcealed d) 1
    if chk then s1
    else
      let s2 := s1.updPic st (fun x => { x with bad := x.bad ++ [(n, c)] })
      let s3 := s2.bump (Reg.decStrmConcealed st) 1
      if c = 1 then s3.decEvent 0 st 0x01 else s3

/-- A picture is abandoned with a cause at its present row (R90, R92). -/
def State.abandon (s : State) (st cause b : Nat) : State :=
  match (s.decS st).pic with
  | none => s
  | some p =>
    if p.abandon.isSome then s
    else (s.updPic st (fun x => { x with abandon := some (cause, x.row) })).decEvent b st cause

/-- A picture whose budget is spent is abandoned at the end of the row that was in progress (R92). -/
def State.abandonSpent (s : State) (st : Nat) (last : Bool) : State :=
  if last && (s.decS st).pic.elim false (fun p => p.spent) then s.abandon st 0x05 3 else s

/-- One block row of a stream ends at engine `d` (R85), the `last` of those in progress: the row is written or concealed; a stream decoded once is signalled, one decoded twice waits for the comparison (R96). -/
def State.endRow (s : State) (d st : Nat) (r : RowData) (forced : Option Nat) (last : Bool) : State :=
  match (s.decS st).pic with
  | none => s
  | some p =>
    if s.checks st d then
      if p.rows ≤ p.chkRow then s
      else
        let f := if (s.decS st).ueChk then some 1 else forced
        ((s.putRow st p true p.chkRow r f).updPic st (fun x => { x with chkRow := x.chkRow + 1 })).updDec st (fun x => { x with ueChk := false })
    else if p.rows ≤ p.row then s
    else
      let f := if (s.decS st).ue then some 1 else forced
      let s0 := ((s.putRow st p false p.row r f).updPic st (fun x => { x with row := x.row + 1, rowTb := x.rowTb ++ [s.now] })).updDec st (fun x => { x with ue := false })
      let s1 := s0.abandonSpent st last
      if p.chk.isSome then s1 else s1.signalRow st

/-- The rows that end together (R86), in order. -/
def State.endRows (s : State) (d st : Nat) : List RowData → State
  | [] => s
  | r :: t => State.endRows (s.endRow d st r none t.isEmpty) d st t

/-- BLOCK_ROW_RECONSTRUCTED (R85 to R87): engine `d` has finished, in `t` ns, the rows that end together of the stream in hand. -/
def State.blockRow (s : State) (d t : Nat) (rs : List RowData) : State :=
  match s.inHand d with
  | none => s.beginRow d
  | some st => ((s.chargeRow d st t).endRows d st rs).beginRow d

/-- An all-zero row, for rows that are concealed whole. -/
def blankRow : RowData := { lost := none, luma := Blob.empty, chroma := Blob.empty }

/-- ROW_LIMIT_EXPIRY (R88, R316): the row in progress is stopped and concealed; class F abandons its picture, class S is a detected fault with cause STAGE_LIMIT. -/
def State.rowLimit (s : State) (d : Nat) : State :=
  match s.inHand d with
  | none => s.beginRow d
  | some st =>
    if s.stClassS st then
      let s2 := s.chargeRow d st (1000 * s.fld Reg.safLimits0 0 16)
      let s3 := (s2.raise { idx := 14, unit := 0, bit := 7, part := some (s.stPart st), detail := 0x0F }).fault { cause := 0x0F, subsys := 3, unit := d, part := some (s.stPart st), stream := some st }
      (s3.endRow d st blankRow (some 6) true).beginRow d
    else
      let s2 := s.chargeRow d st (1000 * clampNat 1000 65000 (s.fld Reg.decCtrl 0 16))
      ((s2.abandon st 0x06 4).endRow d st blankRow (some 0) true).beginRow d

/-- A unit whose wait is over goes on once its notice path has room (R84): its picture begins, or, its budget spent, it is skipped (R93); an end_of_stream unit that is skipped still flushes (R84). -/
def State.endWait (s : State) (st : Nat) : State :=
  match (s.decS st).wait with
  | none => s
  | some w =>
    if s.noticesFull st then s
    else if w.expired then
      let s1 := s.noBuffer st w.info (auFld w.entry 16 0 32) (auFld w.entry 24 0 64)
      if auFld w.entry 2 2 1 = 1 then s1.decFlush st else s1
    else match w.granted with
      | h :: rest => (s.beginPicture st w.entry w.info h rest.head? w.tb).beginRows st
      | [] => s

/-- PICTURE_BUDGET_EXPIRY (R92, R93): a picture is abandoned, at the end of the row that its engine has in hand; one that waits for its buffer is skipped. -/
def State.budgetExpiry (s : State) (st : Nat) : State :=
  match (s.decS st).pic, (s.decS st).wait with
  | some p, _ =>
    if s.now ≤ p.start + s.budget st then s
    else if s.inHand (s.stDecoder st) = some st then s.updPic st (fun x => { x with spent := true })
    else s.abandon st 0x05 3
  | none, some w =>
    if s.now ≤ w.tb + s.budget st ∨ w.granted ≠ [] then s
    else
      let s1 := { s with pool := { s.pool with waiting := s.pool.waiting.filter (fun x =>
        !(decide (x.holder = decHolder (s.stDecoder st)) && decide (x.push = some st))) } }
      (s1.updDec st (fun x => { x with wait := some { w with expired := true } })).endWait st
  | none, none => s

/-! ### Decoding twice (R96, R97) -/

/-- Rows from `n` on concealed and signalled, so that no consumer waits. -/
def State.concealRest (s : State) (st : Nat) : Nat → State
  | 0 => s
  | k + 1 =>
    match (s.decS st).pic with
    | none => s
    | some p =>
      let s1 := if p.row ≤ p.signalled then
          (s.putRow st p false p.signalled blankRow (some 10)).updPic st (fun x => { x with row := x.signalled + 1 })
        else s.updPic st (fun x => { x with bad := x.bad ++ [(x.signalled, 10)] })
      State.concealRest (s1.signalRow st) st k

/-- A mismatch (R97): the frame is withdrawn, the remaining rows are signalled concealed, both engines release their references, RESYNC; a second within 100 pictures of the pair is a detected fault. -/
def State.dualMismatch (s : State) (st : Nat) (p : Picture) : State :=
  let d := s.stDecoder st
  let s1 := (s.bump Reg.decDualMismatchCnt 1).decEvent 7 st 0x0A
  let s2 := (s1.decReport st 0x25 0x0A p.counter p.ts).withdraw st p.counter 2 3 (d / 2)
  let s3 := s2.concealRest st (p.rows - p.signalled)
  let s4 := ((s3.releaseRefs st).setDecState st 2).updDec st (fun x => { x with resync := 0x0A })
  let win := Tab.read (fun _ => none) s.dec.pairWin (d / 2)
  let s5 := { s4 with dec := { s4.dec with pairWin := Tab.write (fun _ => none) s4.dec.pairWin (d / 2) (some 0) } }
  if win.isSome then
    (s5.decEvent 8 st 0x0A).fault { cause := 0x06, subsys := 3, unit := d / 2, part := some (s.stPart st), stream := some st }
  else s5

/-- DUAL_ROW_CRC_COMPARE (R96): the next row that both engines have finished. -/
def State.dualCompare (s : State) (st : Nat) : State :=
  match (s.decS st).pic with
  | none => s
  | some p =>
    match p.chk with
    | none => s
    | some h =>
      let n := p.signalled
      if p.row ≤ n ∨ p.chkRow ≤ n then s
      else if s.rowCrc p.info (s.bufAddr p.handle) n = s.rowCrc p.info (s.bufAddr h) n then s.signalRow st
      else s.dualMismatch st p

/-- CHECKER_LAG (R97): the checker is more than one frame period behind the primary. -/
def State.checkerLag (s : State) (st : Nat) : State :=
  match (s.decS st).pic with
  | none => s
  | some p =>
    match p.chk, p.rowTb[p.chkRow]? with
    | some _, some t =>
      if t + s.stPeriod st < s.now then
        let s1 := (s.decEvent 8 st 0x0A).withdraw st p.counter 2 3 (s.stDecoder st / 2)
        s1.fault { cause := 0x06, subsys := 3, unit := s.stDecoder st / 2, part := some (s.stPart st), stream := some st }
      else s
    | _, _ => s

/-- A waiting picture has its buffers (R261, R93). -/
def State.grantPicture (s : State) (st : Nat) (hs : List Nat) : State :=
  (s.updDec st (fun x => { x with wait := x.wait.map (fun (w : WaitUnit) => { w with granted := hs }) })).endWait st

end Sys2Proof.Machine
end

