-- ==== Sys2Proof/Machine/Tiles.lean ====
section
/-!
DEFINITION. The tile descriptor, the operator block, block addresses and the weight stage (R134, R181, R182, R208 to R210).
-/
namespace Sys2Proof

open Machine

/-- A field of the descriptor (Tables 9.2 to 9.4): byte offset, first bit, length. -/
def Machine.Tile.f (t : Tile) (byte lo len : Nat) : Nat := bits t.desc.toNat (8 * byte + lo) len

namespace Machine

/-- The tile identifier, bytes 0 to 5. -/
def Tile.ident (t : Tile) : Nat := t.f 0 0 48
/-- The operator index. -/
def Tile.layer (t : Tile) : Nat := t.f 0 20 8
/-- The job number. -/
def Tile.job (t : Tile) : Nat := t.f 0 28 12
/-- The owner partition. -/
def Tile.part (t : Tile) : Nat := t.f 0 40 4
/-- 0 matrix, 1 complex, 2 vector-only. -/
def Tile.kind (t : Tile) : Nat := t.f 8 0 2
/-- 0 W4, 1 W8, 2 W12. -/
def Tile.fmt (t : Tile) : Nat := t.f 8 2 2
/-- The next descriptor follows without a grant. -/
def Tile.chain (t : Tile) : Bool := t.f 8 5 1 == 1
/-- FP32 partial sums out. -/
def Tile.partialOut (t : Tile) : Bool := t.f 8 6 1 == 1
/-- Start from FP32 partial sums. -/
def Tile.preload (t : Tile) : Bool := t.f 9 7 1 == 1
/-- Arrays used. -/
def Tile.arrays (t : Tile) : Nat := t.f 9 0 4
/-- Number of arrays used. -/
def Tile.n (t : Tile) : Nat := popCount 4 t.arrays
/-- Accumulator halves claimed. -/
def Tile.claim (t : Tile) : Nat := t.f 10 0 8
/-- Segments. -/
def Tile.segs (t : Tile) : Nat := t.f 11 0 8
/-- First row in the operator's M range. -/
def Tile.mFirst (t : Tile) : Nat := t.f 12 0 24
/-- 32-column block of N. -/
def Tile.nBlock (t : Tile) : Nat := t.f 15 0 8
/-- Rows. -/
def Tile.mCount (t : Tile) : Nat := t.f 16 0 16
/-- Estimate in 10 ns. -/
def Tile.est (t : Tile) : Nat := t.f 18 0 16
/-- First K index. -/
def Tile.kFirst (t : Tile) : Nat := t.f 24 0 32
/-- K indices. -/
def Tile.kCount (t : Tile) : Nat := t.f 28 0 32
/-- Input ring offset. -/
def Tile.inOff (t : Tile) : Nat := t.f 64 0 22
/-- Input height. -/
def Tile.inH (t : Tile) : Nat := t.f 68 0 16
/-- Input width. -/
def Tile.inW (t : Tile) : Nat := t.f 70 0 16
/-- Blocks per input position. -/
def Tile.inCb (t : Tile) : Nat := t.f 72 0 16
/-- Oldest row in the ring. -/
def Tile.inRow0 (t : Tile) : Nat := t.f 74 0 16
/-- Rows per ring. -/
def Tile.inRows (t : Tile) : Nat := t.f 76 0 16
/-- Blocks per output position. -/
def Tile.outCb (t : Tile) : Nat := t.f 78 0 16
/-- Output base. -/
def Tile.outAddr (t : Tile) : Nat := t.f 80 0 48
/-- The output goes to DRAM. -/
def Tile.outDram (t : Tile) : Bool := t.f 86 0 1 == 1
/-- Rows on each halo link. -/
def Tile.haloRows (t : Tile) : Nat := t.f 87 0 5
/-- Output width. -/
def Tile.outW (t : Tile) : Nat := t.f 88 0 16
/-- Rows per output ring. -/
def Tile.outRing (t : Tile) : Nat := t.f 90 0 16
/-- M rows per sample. -/
def Tile.sampleRows (t : Tile) : Nat := t.f 92 0 32
/-- Weight address. -/
def Tile.wAddr (t : Tile) : Nat := t.f 96 0 48
/-- 0 load, 1 reuse, 2 none, 3 from the scratchpad. -/
def Tile.wSrc (t : Tile) : Nat := t.f 102 0 2
/-- Weight lines of 64 bytes. -/
def Tile.wLines (t : Tile) : Nat := t.f 102 2 14
/-- Is batch sample `s` a masked hole? -/
def Tile.hole (t : Tile) (s : Nat) : Bool := decide (s < 64) && t.f 104 s 1 == 1

/-- A field of the operator block (Table 8.2), bytes 32 to 63 of the descriptor. -/
def Tile.o (t : Tile) (byte lo len : Nat) : Nat := t.f (32 + byte) lo len
/-- The operator code. -/
def Tile.op (t : Tile) : Nat := t.o 0 0 8
/-- Is the tile one of a CONV rewritten for a regrouped input (s2d_fold, R188)? The operator block stands unchanged in its descriptor (R181). -/
def Tile.folded (t : Tile) : Bool := decide (t.op = 0x01) && t.o 1 2 1 == 1
/-- The fold factor of a rewritten CONV. -/
def Tile.fold (t : Tile) : Nat := max 1 (t.o 18 0 16)
/-- Kernel rows; 0 counts as 1. -/
def Tile.kh (t : Tile) : Nat := if t.folded then foldK (max 1 (t.o 4 0 8)) (t.o 8 0 8) t.fold else max 1 (t.o 4 0 8)
/-- Kernel columns. -/
def Tile.kw (t : Tile) : Nat := if t.folded then foldK (max 1 (t.o 5 0 8)) (t.o 9 0 8) t.fold else max 1 (t.o 5 0 8)
/-- Row stride. -/
def Tile.sh (t : Tile) : Nat := if t.folded then 1 else max 1 (t.o 6 0 4)
/-- Column stride. -/
def Tile.sw (t : Tile) : Nat := if t.folded then 1 else max 1 (t.o 6 4 4)
/-- Row dilation. -/
def Tile.dh (t : Tile) : Nat := max 1 (t.o 7 0 4)
/-- Column dilation. -/
def Tile.dw (t : Tile) : Nat := max 1 (t.o 7 4 4)
/-- Leading row pad. -/
def Tile.padT (t : Tile) : Nat := if t.folded then ceilDiv (t.o 8 0 8) t.fold else t.o 8 0 8
/-- Leading column pad. -/
def Tile.padL (t : Tile) : Nat := if t.folded then ceilDiv (t.o 9 0 8) t.fold else t.o 9 0 8
/-- Groups, at least 1. -/
def Tile.groups (t : Tile) : Nat := max 1 (t.o 12 0 16)
/-- FP16 parameter p0 as FP32. -/
def Tile.p0 (t : Tile) : Nat := fp16to32 (t.o 14 0 16)
/-- FP16 parameter p1 as FP32. -/
def Tile.p1 (t : Tile) : Nat := fp16to32 (t.o 16 0 16)
/-- aux0. -/
def Tile.aux0 (t : Tile) : Nat := t.o 18 0 16
/-- aux1. -/
def Tile.aux1 (t : Tile) : Nat := t.o 20 0 16
/-- sub. -/
def Tile.sub (t : Tile) : Nat := t.o 3 0 8

/-! ### Loops (R135, R137, R165) -/

/-- Digit passes of a format (Table 6.3). -/
def passes (fmt : Nat) : Nat := fmt + 1

/-- Digit `p` of a difference: signed in the last pass, else 0 to 15 (Table 6.3). -/
def digit (fmt : Nat) (d : Int) (p : Nat) : Int :=
  if p = fmt then d / 16 ^ p else (d / 16 ^ p) % 16

/-- Span of the tile's weight groups: MATMUL_RT quantises in groups of 64 (R186). -/
def Tile.span (t : Tile) : Nat := if t.op = 0x03 then 64 else t.facts.span

/-- K indices of one K step (R137). -/
def Tile.kStep (t : Tile) : Nat := if t.span = 64 then 64 else 128

/-- Does a whole output channel share one group parameter? -/
def Tile.whole (t : Tile) : Bool := decide (t.span = 0)

/-- K steps that the tile covers. -/
def Tile.kSteps (t : Tile) : Nat := ceilDiv t.kCount t.kStep

/-- Weight sets: three for a complex tile (R141). -/
def Tile.sets (t : Tile) : Nat := if t.kind = 1 then 3 else 1

/-- Segments, at least 1. -/
def Tile.segN (t : Tile) : Nat := max 1 t.segs

/-- Rows of one segment with its padding. -/
def Tile.segLen (t : Tile) : Nat := t.mCount / t.segN

/-- The group parameters of one column and set. -/
def Tile.groupsK (t : Tile) : Nat := if t.whole then 1 else t.kSteps

/-- Blocks of K per output row: input channels of one group, or of one head of MATMUL_RT, in whole blocks. -/
def Tile.cbK (t : Tile) : Nat :=
  if t.op = 0x03 then ceilDiv t.facts.cin 16 else if t.groups = 1 then t.inCb else ceilDiv (t.facts.cin / t.groups) 16

/-- The operator's K in whole blocks (R182). -/
def Tile.opK (t : Tile) : Nat :=
  if t.op = 0x01 ∨ t.op = 0x10 then t.kh * t.kw * 16 * t.cbK else 16 * t.cbK

/-- Is the tile one of a grouped product on the arrays (R197): one product per group, N padded to 32 in each? -/
def Tile.grouped (t : Tile) : Bool := decide (t.kind = 0) && (t.op == 0x01 || t.op == 0x10) && decide (1 < t.groups)

/-- Output channels of one product. -/
def Tile.perN (t : Tile) : Nat := if t.grouped then t.facts.cout / t.groups else t.facts.cout

/-- N blocks of one product. -/
def Tile.blocksN (t : Tile) : Nat := max 1 (ceilDiv t.perN 32)

/-- The group that the tile's N block belongs to. -/
def Tile.groupN (t : Tile) : Nat := if t.grouped then t.nBlock / t.blocksN else 0

/-- The output channel of column `n` of the tile's N block; none for a padded column (R184, R197). -/
def Tile.chanOf (t : Tile) (n : Nat) : Option Nat :=
  let x := 32 * (if t.grouped then t.nBlock % t.blocksN else t.nBlock) + n
  if x < t.perN then some (t.groupN * t.perN + x) else none

/-- Channels of a whole spectrum: Co of R189. -/
def Tile.coAll (t : Tile) : Nat := 32 * ceilDiv t.facts.cout 32

/-! ### The weight stage (R134, R164) -/

/-- Base of weight-stage buffer `b` of core `c`. -/
def stageBase (c b : Nat) : Nat := 0x1030000000 + 0x1000000 * c + 0x40000 * b

/-- Bytes of weight codes of a tile. -/
def Tile.codeBytes (t : Tile) : Nat := t.segN * t.sets * (16 * ceilDiv t.kCount 16) * 4 * wBits t.fmt

/-- Group parameters of a tile. -/
def Tile.paramCount (t : Tile) : Nat := t.segN * t.sets * t.groupsK * 32

/-- K indices that the codes of one column cover, in whole blocks. -/
def Tile.kPad (t : Tile) : Nat := 16 * ceilDiv t.kCount 16

/-- The index of a code: segments outermost, then sets, then K, columns innermost (R164, R187; log entry 22). -/
def Tile.codeIdx (t : Tile) (seg set k n : Nat) : Nat := ((seg * t.sets + set) * t.kPad + k) * 32 + n

/-- The index of a group parameter: segments, sets, K steps, columns (log entry 22). -/
def Tile.paramIdx (t : Tile) (seg set q n : Nat) : Nat :=
  ((seg * t.sets + set) * t.groupsK + (if t.whole then 0 else q)) * 32 + n

/-- The byte in the stage that holds the first bit of a code. -/
def Tile.codeAddr (t : Tile) (base seg set k n : Nat) : Nat := base + wBits t.fmt * t.codeIdx seg set k n / 8

/-- The address of a group parameter: 32 KiB of the buffer after 224 KiB of codes. -/
def Tile.paramAddr (t : Tile) (base seg set q n : Nat) : Nat := base + 0x38000 + 4 * t.paramIdx seg set q n

/-- A weight code read from the stage. -/
def State.wCode (s : State) (t : Tile) (base seg set k n : Nat) : Nat :=
  bits (s.rdMem (t.codeAddr base seg set k n) 2) (wBits t.fmt * t.codeIdx seg set k n % 8) (wBits t.fmt)

/-- A group parameter: FP16 scale in bytes 0 and 1, zero point in bytes 2 and 3. -/
def State.wParam (s : State) (t : Tile) (base seg set q n : Nat) : Nat := s.rdMem (t.paramAddr base seg set q n) 4

/-! ### Where blocks lie (R209) -/

/-- The batch sample and position of row `m` of the operator's M range; no sample rows means one sample. -/
def Tile.place (t : Tile) (m : Nat) : Nat × Nat :=
  if t.sampleRows = 0 then (0, m) else (m / t.sampleRows, m % t.sampleRows)

/-- The batch sample that logical row `m` belongs to: a row of a complex tile is a tile of the frequency path, as are the rows of its transforms (R190, R194). -/
def Tile.sampleAt (t : Tile) (m : Nat) : Nat :=
  let per := max 1 (t.facts.ty * t.facts.tx)
  if t.kind = 1 then m % max 1 (if t.facts.segRows = 0 then t.mCount / t.segN else t.facts.segRows) / per
  else if t.op = 0x08 ∨ t.op = 0x0A ∨ t.op = 0x0B then m / per
  else (t.place m).1

/-- Does logical row `m` belong to a masked hole (R214)? -/
def Tile.holeRow (t : Tile) (m : Nat) : Bool := t.hole (t.sampleAt m)

/-- The first and the last logical row of the tile. -/
def Tile.rowSpan (t : Tile) : Nat × Nat :=
  if t.segN ≤ 1 then (t.mFirst, t.mFirst + (max 1 t.mCount - 1))
  else
    let len := max 1 t.segLen
    let rows := if t.facts.segRows = 0 then len else t.facts.segRows
    (t.mFirst / len * rows, (t.mFirst / len + (t.segN - 1)) * rows + (rows - 1))

/-- The batch sample of the tile's first row. -/
def Tile.s0 (t : Tile) : Nat := t.sampleAt t.rowSpan.1

/-- Batch samples that the tile covers. -/
def Tile.sampleSpan (t : Tile) : Nat := t.sampleAt t.rowSpan.2 - t.s0 + 1

/-- The logical row of tile row `r`, none for padding of a segment (R187, R214). -/
def Tile.row (t : Tile) (r : Nat) : Option Nat :=
  if t.segN ≤ 1 then (if r < t.mCount then some (t.mFirst + r) else none)
  else
    let len := max 1 t.segLen
    let rows := if t.facts.segRows = 0 then len else t.facts.segRows
    if r < t.mCount ∧ r % len < rows then some ((t.mFirst / len + r / len) * rows + r % len) else none

/-- The segment of tile row `r`. -/
def Tile.segOf (t : Tile) (r : Nat) : Nat := if t.segN ≤ 1 then 0 else r / max 1 t.segLen

/-- The device address of input block `cb` of row `r`, column `x` of sample `smp` in core `c`'s ring. -/
def Tile.inAddr (t : Tile) (c smp r x cb : Nat) : Nat :=
  scratchAddr c 0 + t.inOff + 32 * t.inCb * t.inW * ((smp - t.s0) * t.inRows + r % max 1 t.inRows) + 32 * (t.inCb * x + cb)

/-- The device address of output block `cb` of row `m`. -/
def Tile.outBlk (t : Tile) (c m cb : Nat) : Nat :=
  if t.outDram then t.outAddr + 32 * (t.outCb * m + cb)
  else
    let sp := t.place m
    let w := max 1 t.outW
    scratchAddr c 0 + t.outAddr % 2 ^ 22
      + 32 * t.outCb * w * ((sp.1 - t.s0) * t.outRing + (sp.2 / w) % max 1 t.outRing) + 32 * (t.outCb * (sp.2 % w) + cb)

/-! ### Reading a block -/

/-- A block as a consumer sees it (R140, R159, R176), and where it was read; none for a zero block that the feeder supplies. -/
structure Seen where
  src : Option Nat := none
  blk : Nat := 0
  poison : Bool := false
  concealed : Bool := false
  deriving DecidableEq, Repr

/-- A block read from memory: poisoned by its own marks, by an uncorrectable word, or in class S by its CRC-16 (R140); the status byte lies outside the CRC, so concealment travels on with a block that fails it (R160, R176). -/
def State.seeBlk (s : State) (classS : Bool) (a : Nat) : Seen :=
  let b := s.rdMem a 32
  let lost := s.uncorr a 32
  { src := some a, blk := b, poison := blkPoison b || lost || (classS && decide (blkCrc b ≠ blkCrcOf b)), concealed := blkConcealed b && !lost }

/-- The value of channel `ch` of a seen block as FP32. -/
def Seen.val (v : Seen) (ch : Nat) : Nat := blkFp v.blk ch

/-! ### Errors of a core -/

/-- An event of a core: TC_ERR_LOC is captured while TC_ERR reads 0 (Tables 6.9, 19.1). -/
def State.tcErr (s : State) (c b loc : Nat) (t : Tile) : State :=
  let s1 := if s.rd (Reg.tcErr c) = 0 then s.wr (Reg.tcErrLoc c) (loc % 4096 + b <<< 12) else s
  s1.raise { idx := 6, unit := c, bit := b, part := some t.part, detail := s1.rd (Reg.tcErrLoc c) % 65536, addr := t.ident }

/-- Where a core's feeders and engines read: every word in error is counted and reported, a failing CRC-16 of a class S block is an event and a detected fault (R140, Table 6.8). -/
def State.noteInput (s : State) (c : Nat) (t : Tile) (a : Nat) : State :=
  let s1 := s.noteRead (holderName 6 c) (some t.part) a 32
  if s.uncorr a 32 then s1.tcErr c 2 ((bits a 18 4) <<< 8) t
  else if s.classS t.part && decide (blkCrc (s.rdMem a 32) ≠ blkCrcOf (s.rdMem a 32)) then
    (s1.tcErr c 1 ((bits a 18 4) <<< 8) t).fault { cause := 0x0A, subsys := 6, unit := c, part := some t.part }
  else s1

end Machine

end Sys2Proof
end

