-- ==== Sys2Proof/Machine/Planner.lean ====
section
/-!
DEFINITION. Jobs and the step builder (R206, R213, R217, R218, R225 to R227, R347 to R349).
-/
namespace Sys2Proof.Machine

/-! ### Models (Tables 15.16, 15.17) -/

/-- A loaded model of a partition. -/
def State.model (s : State) (p h : Nat) : Option Model := s.pln.models.find? (fun m => decide (m.part = p) && decide (m.handle = h))

/-- Stages of a package. -/
def pkgStages (b : Blob) : Nat := b.le 14 2
/-- Operators of a package. -/
def pkgOps (b : Blob) : Nat := b.le 12 2
/-- First operator of a stage. -/
def pkgFirstOp (b : Blob) (g : Nat) : Nat := b.le (b.le 20 4 + 8 * g) 1
/-- Is a stage band-grained? -/
def pkgBanded (b : Blob) (g : Nat) : Bool := b.le (b.le 20 4 + 8 * g + 2) 1 % 2 == 1
/-- A planned extent. -/
def pkgPlanned (b : Blob) (i : Nat) : Nat := b.le (40 + 2 * i) 2
/-- Last operator of a stage. -/
def pkgLastOp (b : Blob) (g : Nat) : Nat := b.le (b.le 20 4 + 8 * g + 1) 1
/-- The outputs of a package: operator and record type, 0x20 for candidates (Table 15.16). -/
def pkgOuts (b : Blob) : List (Nat × Nat) := (List.range (b.le 36 1)).map (fun i => (b.le (b.le 32 4 + 8 * i) 1, b.le (b.le 32 4 + 8 * i + 1) 1))
/-- Does a package deliver candidates? -/
def pkgCands (b : Blob) : Bool := (pkgOuts b).any (fun o => decide (o.2 = 0x20))
/-- Does a package deliver records? -/
def pkgRecs (b : Blob) : Bool := (pkgOuts b).any (fun o => decide (o.2 ≠ 0x20))
/-- Does a stage make a package's candidates? -/
def pkgCandStage (b : Blob) (g : Nat) : Bool := (pkgOuts b).any (fun o => decide (o.2 = 0x20) && decide (pkgFirstOp b g ≤ o.1) && decide (o.1 ≤ pkgLastOp b g))
/-- A field of an operator entry. -/
def pkgOp (b : Blob) (k off n : Nat) : Nat := b.le (b.le 16 4 + 64 * k + off) n

/-! ### Sequences (Table 9.8) -/

/-- A sequence entry. -/
def State.seq (s : State) (i : Nat) : Nat := (Tab.read (fun _ => 0) s.pln.seqs i).toNat

/-- A sequence entry replaced. -/
def State.setSeq (s : State) (i v : Nat) : State :=
  { s with pln := { s.pln with seqs := Tab.write (fun _ => 0) s.pln.seqs i (BitVec.ofNat 256 v) } }

/-- The stream of a sequence. -/
def seqStream (v : Nat) : Nat := bits v 0 7
/-- valid. -/
def seqValid (v : Nat) : Bool := v.testBit 7
/-- The view. -/
def seqView (v : Nat) : Nat := bits v 8 2
/-- The partition. -/
def seqPart (v : Nat) : Nat := bits v 10 4
/-- The model handle. -/
def seqModel (v : Nat) : Nat := bits v 16 16
/-- max_batch, 0 as 1. -/
def seqBatch (v : Nat) : Nat := max 1 (bits v 32 8)

/-- May a bound sequence be valid: its model loaded, its ring that of the stream (R225, R244, R360)? -/
def State.seqReady (s : State) (v : Nat) : Bool :=
  (s.model (seqPart v) (seqModel v)).isSome && s.stValid (seqStream v)
    && decide (bits v 192 14 = s.fld (Reg.colStrmCfg (seqStream v)) 0 14)

/-- The bound sequences of a partition. -/
def State.partSeqs (s : State) (p : Nat) : List Nat :=
  (s.pln.seqs.filter (fun e => decide (seqPart e.2.toNat = p))).map (fun e => e.1)

/-! ### Records of planner firmware -/

/-- The port of the lowest core on which a partition holds slots (R241). -/
def State.planPort (s : State) (p : Nat) : Nat :=
  ((List.range 8).find? (fun c => decide (0 < countSlots (s.slotOwner c) p))).getD 0

/-- A planner STREAM_STATUS record (Table 9.9): the operator is that of the tile concerned, or the first of the job's stage where there is none (log entry 87). -/
def State.planRec (s : State) (j : Job) (u : PUnit) (idx kind : Nat) : State :=
  let stageOp := match s.model j.part j.model with | some m => pkgFirstOp m.pkg j.stage | none => 0
  let layer := if j.tile = 0 then stageOp else bits j.tile 20 8
  let v := kind + j.status <<< 8 + j.reject <<< 16 + idx <<< 24 + (u.counter % 2 ^ 32) <<< 32 + (layer % 256) <<< 64
    + j.num <<< 80 + (j.tile % 2 ^ 32) <<< 96
  s.handRec (s.planPort j.part) { s.blankRec u.stream with
    typ := 0x09, kind := kind, counter := u.counter, ts := u.ts, concealed := u.concealed, body := { len := 24, val := v } }

/-! ### Ends of jobs -/

/-- The planner's holder name in the pool manager: PA or PB (R206, R260). -/
def plnHolder (p : Nat) : Nat := holderName 8 (p % 2)

/-- The completion word of a JOB entry and its signal (R349): status, entry error, tag, TB. -/
def State.jobWord (s : State) (p : Nat) (e : Desc64) (status err : Nat) : State :=
  let v := e.toNat
  let word := status + err <<< 8 + (bits v (8 * 44) 32) <<< 32 + s.now <<< 64
  let s1 := if v.testBit 9 then s.hostPost p (bits v (8 * 48) 64) 16 word false else s
  if v.testBit 8 then s1.signal (bits v (8 * 30) 16) (bits v (8 * 40) 32) else s1

/-- The handles of a JOB entry. -/
def jobHandles (e : Desc64) : List Nat :=
  ([8, 12, 16].map (fun o => bits e.toNat (8 * o) 32)).filter (fun h => decide (h ≠ 0))

/-- The planner drops its holds of a JOB entry's buffers (R348). -/
def State.dropJob (s : State) (p : Nat) (e : Desc64) : State :=
  (jobHandles e).foldl (fun x h => (x.drop p (plnHolder p) h).1) s

/-- Does a job's end make its samples holes (R213, R218)? -/
def endsHoles (j : Job) : Bool := decide (j.status = 0x10) || decide (j.status = 0x11)

/-- A sequence's part of a frame. -/
def State.seqFrame (s : State) (i c : Nat) : SeqFrame :=
  (s.pln.frames.find? (fun f => decide (f.seq = i) && decide (f.counter = c))).getD { seq := i, counter := c }

/-- A sequence's part of a frame changed. -/
def State.updSeqFrame (s : State) (i c : Nat) (g : SeqFrame → SeqFrame) : State :=
  { s with pln := { s.pln with frames := g (s.seqFrame i c) :: s.pln.frames.filter (fun f => !(decide (f.seq = i) && decide (f.counter = c))) } }

/-- A frame suppressed under R91 is so for every sequence of one of its stream's views (Table 10.1). -/
def State.markSuppressed (s : State) (st v c : Nat) : State :=
  (s.pln.seqs.filter (fun e => let q := e.2.toNat; seqValid q && decide (seqStream q = st) && decide (seqView q = v))).foldl
    (fun x e => x.updSeqFrame e.1 c (fun f => { f with suppressed := true })) s

/-- A report about a sample, once: `conc` for its concealment, else for its hole (R227). -/
def State.tellSample (s : State) (j : Job) (u : PUnit) (idx : Nat) (conc : Bool) : State :=
  let f := s.seqFrame u.seq u.counter
  if (if conc then f.toldConc else f.toldHole).contains u.sample then s
  else (s.planRec j u idx (if conc then 0x41 else 0x40)).updSeqFrame u.seq u.counter (fun f =>
    if conc then { f with toldConc := u.sample :: f.toldConc } else { f with toldHole := u.sample :: f.toldHole })

/-- What the batch samples of a job report (R227): JOB_ENDED for a status of 0x10 or above; a hole, one that the job's end makes among them, and a concealed sample, once for each sample whatever its band units. -/
def State.jobRecords (s : State) (j : Job) : State :=
  ((List.range j.units.length).zip j.units).foldl (fun x (e : Nat × PUnit) =>
    let u := e.2
    let x1 := if 0x10 ≤ j.status then x.planRec j u e.1 0x42 else x
    if u.hole || endsHoles j then x1.tellSample j u e.1 false
    else if u.concealed && !(x.strmFld u.stream 36 0 1 == 1) then x1.tellSample j u e.1 true
    else x1) s

/-- A unit after its job: a sample of a job rejected or above plan is a hole from that stage on (R213, R218). -/
def afterJob (j : Job) (u : PUnit) : PUnit := { u with stage := u.stage + 1, hole := u.hole || endsHoles j }

/-! ### What a sequence makes of a frame (log entry 87) -/

/-- Samples of a sequence's view (Table 5.1). -/
def State.seqSamples (s : State) (v : Nat) : Nat :=
  if seqView v = 0 then 1 else max 1 (bits (s.rdWords (Reg.pfeView (seqStream v) (seqView v)) 16) 16 7)

/-- The view's band queue (Table 5.1). -/
def State.bandQueue (s : State) (st v : Nat) : Nat := bits (s.rdWords (Reg.pfeView st v) 16) (8 * 26) 14

/-- The package of a sequence's model. -/
def State.seqPkg (s : State) (v : Nat) : Blob := match s.model (seqPart v) (seqModel v) with | some m => m.pkg | none => Blob.empty

/-- The sequences that take part in the frames of a stream: valid, with a band queue. -/
def State.frameSeqs (s : State) (st : Nat) : List Nat :=
  (s.pln.seqs.filter (fun e => let v := e.2.toNat
    seqValid v && decide (seqStream v = st) && decide (s.bandQueue st (seqView v) ≠ noQueue))).map (fun e => e.1)

/-- Has every sequence of a stream with candidates sent an entry for every sample of a frame? -/
def State.candsSent (s : State) (st c : Nat) : Bool :=
  (s.frameSeqs st).all (fun i =>
    !(pkgCands (s.seqPkg (s.seq i))) || (let f := s.seqFrame i c; decide (s.seqSamples (s.seq i) * f.bands ≤ f.cands)))

/-- The stream's candidate queue (Table 10.2). -/
def State.candsTo (s : State) (st : Nat) : Nat := bits (s.rdWords (Reg.trkStrmDesc st) 16) (8 * 40) 14

/-- One candidate entry on the stream's candidate queue (Table 10.1), last once nothing of the frame is missing. -/
def State.sendCands (s : State) (u : PUnit) (hole cut : Bool) (addr n emb embW : Nat) : State :=
  let s1 := s.updSeqFrame u.seq u.counter (fun f => { f with bands := u.bands, cands := f.cands + 1 })
  let e := u.entry.toNat
  let v := 0x20 + u.stream <<< 8 + (u.view + u.sample <<< 2) <<< 16
    + (b2n cut + 2 * b2n hole + 4 * b2n (s1.candsSent u.stream u.counter) + 8 * b2n (s1.seqFrame u.seq u.counter).suppressed) <<< 24
    + (u.counter % 2 ^ 32) <<< 32 + (u.ts % 2 ^ 64) <<< 64 + (addr % 2 ^ 48) <<< 128 + (if hole then 0 else min n 8192) <<< 176
    + (emb % 2 ^ 48) <<< 192 + (embW % 65536) <<< 240 + (bits e 320 64) <<< 256 + (bits e 288 32) <<< 320
  let q := s.candsTo u.stream
  if q = noQueue then s1 else s1.enqueue q v

/-- The samples of a job without a candidate entry when it ends send an empty one (R232). -/
def State.dryCands (s : State) (j : Job) : State :=
  match s.model j.part j.model with
  | none => s
  | some m =>
    if pkgCandStage m.pkg j.stage then
      ((List.range j.units.length).zip j.units).foldl (fun x e =>
        if j.sent.contains e.1 then x else x.sendCands e.2 (e.2.hole || endsHoles j) false 0 0 0 0) s
    else s

/-- A unit is through the last stage: with the last of its sequence's frame, a producer of records that has not set frame_done sends a mark (R240); the frame is forgotten when every sequence is through. -/
def State.unitOver (s : State) (u : PUnit) : State :=
  let s1 := s.updSeqFrame u.seq u.counter (fun f => { f with bands := u.bands, units := f.units + 1 })
  let f := s1.seqFrame u.seq u.counter
  if f.units < s1.seqSamples (s1.seq u.seq) * u.bands then s1
  else
    let s2 := if pkgRecs (s1.seqPkg (s1.seq u.seq)) && !f.marked then s1.handFrame u.stream (s1.planPort u.part) u.counter u.ts [] else s1
    let s3 := s2.updSeqFrame u.seq u.counter (fun f => { f with finished := true, marked := true })
    if (s3.frameSeqs u.stream).all (fun i => (s3.seqFrame i u.counter).finished) then
      { s3 with pln := { s3.pln with frames := s3.pln.frames.filter (fun f => !(decide (f.counter = u.counter) && decide (seqStream (s3.seq f.seq) = u.stream))) } }
    else s3

/-- The units of a sequence that wait or run, each with the next stage that it has to run. -/
def State.seqUnits (s : State) (i : Nat) : List (Nat × PUnit) :=
  (s.pln.units.filter (fun u => decide (u.seq = i))).map (fun u => (u.stage, u))
    ++ s.pln.jobs.flatMap (fun j => (j.units.filter (fun u => decide (u.seq = i))).map (fun u => (j.stage + 1, u)))

/-- counter, bands_seen and stage of a sequence entry: its oldest frame in progress, the bands received for that frame, and the next stage to run for it (Table 9.8); without a frame in progress they stay. -/
def State.showSeq (s : State) (i : Nat) : State :=
  match s.seqUnits i with
  | [] => s
  | x :: l =>
    let old := l.foldl (fun (a : PUnit) e => if e.2.ts < a.ts then e.2 else a) x.2
    let mine := (x :: l).filter (fun e => decide (e.2.counter = old.counter))
    let stage := mine.foldl (fun m e => min m e.1) 255
    let seen := (s.seqFrame i old.counter).seen
    s.setSeq i (putBits (putBits (putBits (s.seq i) 64 32 (old.counter % 2 ^ 32)) 96 32 (seen % 2 ^ 32)) 48 8 stage)

/-- The sequences of some units shown anew. -/
def State.showSeqs (s : State) (l : List PUnit) : State := ((l.map (fun u => u.seq)).eraseDups).foldl (fun x i => x.showSeq i) s

/-- The signals of a job not yet performed (R213, R217, R218). -/
def State.restSignals (s : State) (j : Job) : State := j.sigs.foldl (fun x g => x.signal g.1 g.2) s

/-- A status that holes add (Table 9.6). -/
def jobStatus (j : Job) : Nat := if j.status = 0 ∧ j.units.any (fun u => u.hole) = true then 3 else j.status

/-- A job's end: its remaining signals, its records, the units of the next stage, or the next stage or the completion word of a JOB entry (R213, R226, R227, R349). -/
def State.endJob (s : State) (j0 : Job) : State :=
  let j := { j0 with status := jobStatus j0 }
  let s1 := { s with pln := { s.pln with jobs := s.pln.jobs.filter (fun x => !(decide (x.num = j.num) && decide (x.part = j.part))) } }
  let s2 := s1.restSignals j
  match j.entry with
  | some e =>
    if j.status < 0x10 && decide (j.stage < j.last) then
      { s2 with pln := { s2.pln with jobs := s2.pln.jobs ++ [{ j with stage := j.stage + 1, planned := false, sigs := [], cands := [] }] } }
    else (s2.dropJob j.part e).jobWord j.part e j.status 0
  | none =>
    let s3 := (s2.jobRecords j).dryCands j
    let stages := match s.model j.part j.model with | some m => pkgStages m.pkg | none => 0
    (if j.stage + 1 < stages then { s3 with pln := { s3.pln with units := s3.pln.units ++ j.units.map (afterJob j) } }
     else j.units.foldl (fun x u => x.unitOver u) s3).showSeqs j.units

/-- The job of a tile. -/
def State.jobOf (s : State) (p num : Nat) : Option Job := s.pln.jobs.find? (fun j => decide (j.num = num) && decide (j.part = p))

/-- The job of a tile changed. -/
def State.updJob (s : State) (p num : Nat) (f : Job → Job) : State :=
  { s with pln := { s.pln with jobs := s.pln.jobs.map (fun j => if j.num = num ∧ j.part = p then f j else j) } }

/-- An amount taken off the completion signals that remain. -/
def takeSig (n amt : Nat) : List (Nat × Nat) → List (Nat × Nat)
  | [] => []
  | (o, a) :: t => if o = n then (if a ≤ amt then takeSig n (amt - a) t else (o, a - amt) :: t) else (o, a) :: takeSig n amt t

/-- A tile of a job has closed: its signal is performed; the job ends with its last tile. -/
def State.tileDone (s : State) (p num sig amt : Nat) (failed : Bool) (tile : Nat) : State :=
  let s1 := s.updJob p num (fun j => { j with
    tilesLeft := j.tilesLeft - 1, sigs := takeSig sig amt j.sigs,
    status := if failed then 0x12 else j.status, tile := if failed then tile else j.tile })
  match s1.jobOf p num with
  | some j => if j.planned && decide (j.tilesLeft = 0) then s1.endJob j else s1
  | none => s1

/-! ### The step builder (R226) -/

/-- A band entry of a sequence as a unit (Table 5.4). -/
def unitOf (p seq : Nat) (e : Nat) : PUnit :=
  { part := p, seq := seq, stage := 0, stream := bits e 8 7, view := bits e 16 2, sample := bits e 24 8,
    counter := bits e 32 32, ts := bits e 64 64, band := bits e 192 16, bands := max 1 (bits e 208 16),
    hole := e.testBit 273, concealed := e.testBit 274, entry := BitVec.ofNat 512 e }

/-- The sequences of a partition that take an entry of a stream view. -/
def State.takers (s : State) (p e : Nat) : List Nat :=
  (s.partSeqs p).filter (fun i =>
    let v := s.seq i
    seqValid v && decide (seqStream v = bits e 8 7) && decide (seqView v = bits e 16 2))

/-- A unit of a sample that has become a hole makes the sample one from then on: its other units follow, those of a batch already formed among them, which is not repacked (Table 9.12). -/
def State.spreadHole (s : State) (u : PUnit) : State :=
  if !u.hole then s
  else
    let mark := fun (x : PUnit) => if x.seq = u.seq ∧ x.counter = u.counter ∧ x.sample = u.sample then { x with hole := true } else x
    { s with pln := { s.pln with units := s.pln.units.map mark, jobs := s.pln.jobs.map (fun j => { j with units := j.units.map mark }) } }

/-- An entry joins its sequence: the unit waits for its step, and the entry shows the frame in progress (Table 9.8). -/
def State.joinSeq (s : State) (i : Nat) (u : PUnit) : State :=
  let s1 := { s with pln := { s.pln with units := s.pln.units ++ [u] } }
  ((s1.updSeqFrame i u.counter (fun f => { f with seen := f.seen + 1 })).spreadHole u).showSeq i

/-- Every entry held on a queue becomes units; `n` bounds the entries. -/
def State.drainBands (s : State) (p q : Nat) : Nat → State
  | 0 => s
  | n + 1 =>
    match s.readHead q with
    | (s0, none) => s0
    | (s0, some e) =>
      if bits e 0 8 = 0x10 ∧ s.stPart (bits e 8 7) = p then
        let s1 := (s0.takers p e).foldl (fun x i => x.joinSeq i (unitOf p i e)) (s0.dequeue q)
        State.drainBands s1 p q n
      else s

/-- Does unit `a` stand before `b`: oldest timestamp, lower stream, view, sample, band? -/
def unitBefore (a b : PUnit) : Bool :=
  if a.ts ≠ b.ts then decide (a.ts < b.ts)
  else if a.stream ≠ b.stream then decide (a.stream < b.stream)
  else if a.view ≠ b.view then decide (a.view < b.view)
  else if a.sample ≠ b.sample then decide (a.sample < b.sample)
  else decide (a.band ≤ b.band)

/-- A unit put in its place. -/
def insertUnit (u : PUnit) : List PUnit → List PUnit
  | [] => [u]
  | x :: t => if unitBefore u x then u :: x :: t else x :: insertUnit u t

/-- Units in order. -/
def sortUnits (l : List PUnit) : List PUnit := l.foldl (fun a u => insertUnit u a) []

/-- Do two units belong to one sample of one frame? -/
def sameSample (a b : PUnit) : Bool :=
  decide (a.seq = b.seq) && decide (a.counter = b.counter) && decide (a.sample = b.sample) && decide (a.stage = b.stage)

/-- Whole samples: units of one sample joined once every band is there (R226). -/
def wholeUnits (l : List PUnit) : List PUnit :=
  (l.filter (fun u => decide (u.band = 0))).filterMap (fun u =>
    let mine := l.filter (fun x => sameSample u x)
    if u.bands ≤ mine.length ∨ u.bands = 1 then
      some { u with bands := 1, hole := mine.any (fun x => x.hole), concealed := mine.any (fun x => x.concealed) }
    else none)

/-- The units of a model's stage whose inputs are complete. -/
def State.readyUnits (s : State) (m : Model) (g : Nat) : List PUnit :=
  let l := s.pln.units.filter (fun u => decide (u.part = m.part) && decide (u.stage = g) && decide (seqModel (s.seq u.seq) = m.handle))
  sortUnits (if pkgBanded m.pkg g then l else wholeUnits l)

/-- The credits of candidate queues that a batch needs at a stage, one for each unit (R255). -/
def State.candNeeds (s : State) (m : Model) (g : Nat) (l : List PUnit) : List Nat :=
  if pkgCandStage m.pkg g then (l.map (fun u => s.candsTo u.stream)).filter (fun q => decide (q ≠ noQueue)) else []

/-- Are credits free, beside those that jobs have reserved (R255)? -/
def State.candCredit (s : State) (l : List Nat) : Bool :=
  l.all (fun q => decide (l.count q + (s.pln.jobs.flatMap (fun j => j.credits)).count q ≤ s.qFree q))

/-- The longest first part of a batch, of at most `n` units, whose credits are free (R18, R255). -/
def State.credited (s : State) (m : Model) (g : Nat) (l : List PUnit) : Nat → List PUnit
  | 0 => []
  | n + 1 => if s.candCredit (s.candNeeds m g (l.take (n + 1))) then l.take (n + 1) else State.credited s m g l n

/-- One batch handed to PA or PB as a job; its sequences record the step and what is next. -/
def State.handBatch (s : State) (m : Model) (g : Nat) (batch : List PUnit) : State :=
  let j : Job := { num := s.pln.nextJob, part := m.part, model := m.handle, stage := g, units := batch, credits := s.candNeeds m g batch }
  let gone := fun (u : PUnit) => batch.any (fun x => sameSample x u && (decide (x.band = u.band) || !(pkgBanded m.pkg g)))
  let s1 := { s with pln := { s.pln with
    nextJob := (s.pln.nextJob + 1) % 4096, jobs := s.pln.jobs ++ [j], units := s.pln.units.filter (fun u => !(gone u)) } }
  (batch.foldl (fun x u => x.setSeq u.seq (putBits (x.seq u.seq) 128 64 s.now)) s1).showSeqs batch

/-- Batches of at most min(64, max_batch) units; units without a credit wait (R255). `n` bounds their number. -/
def State.handAll (s : State) (m : Model) (g : Nat) : Nat → List PUnit → State
  | 0, _ => s
  | _, [] => s
  | n + 1, u :: t =>
    let size := max 1 (min 64 (if bits m.pkg.val (8 * 37) 8 = 0 then seqBatch (s.seq u.seq) else min (seqBatch (s.seq u.seq)) (bits m.pkg.val (8 * 37) 8)))
    let batch := s.credited m g (u :: t) size
    if batch.isEmpty then s else State.handAll (s.handBatch m g batch) m g n ((u :: t).drop batch.length)

/-- The stages of a model from `g` on, in pipeline order. -/
def State.stepModel (s : State) (m : Model) (g : Nat) : Nat → State
  | 0 => s
  | n + 1 =>
    let r := s.readyUnits m g
    State.stepModel (s.handAll m g r.length r) m (g + 1) n

/-- A sequence that becomes valid has no part in the frames that others of its stream have begun (log entry 87). -/
def State.lateSeq (s : State) (i : Nat) : State :=
  let st := seqStream (s.seq i)
  let cs := ((s.pln.frames.filter (fun f => decide (seqStream (s.seq f.seq) = st))).map (fun f => f.counter)).eraseDups
  cs.foldl (fun x c => x.updSeqFrame i c (fun f => { f with cands := x.seqSamples (x.seq i), finished := true, marked := true })) s

/-- Sequences bound to a model become valid, removed ones go (R225, R360). -/
def State.settleSeqs (s : State) (p : Nat) : State :=
  let s1 := (s.pln.unbind.filter (fun i => decide (seqPart (s.seq i) = p))).foldl (fun x i =>
    { x.setSeq i 0 with pln := { (x.setSeq i 0).pln with units := x.pln.units.filter (fun u => decide (u.seq ≠ i)), frames := x.pln.frames.filter (fun f => decide (f.seq ≠ i)), unbind := x.pln.unbind.filter (fun k => decide (k ≠ i)) } }) s
  (s1.partSeqs p).foldl (fun x i =>
    let v := x.seq i
    let ok := x.seqReady v
    (if ok && !(seqValid v) then x.lateSeq i else x).setSeq i (putBits v 7 1 (b2n ok))) s1

/-- The number of the step whose start TB has reached in its last increment: TB minus offset reaches a multiple of the period there (R226); none at any other TB. -/
def State.stepNow (s : State) (p : Nat) : Option Nat :=
  let period := s.partFld p 2 0 16 * 1000 * 2 ^ 32
  let off := s.partFld p 4 0 32 * 1000 * 2 ^ 32
  let v := s.tb.vote.toNat
  if period = 0 ∨ v < off then none
  else if (v - off) % period < max 1 s.tbIncrement.toNat then some ((v - off) / period) else none

/-- STEP_START of a partition (R226), once at each step start: band entries taken, then every stage of its models in pipeline order; nothing while it does not process (R332). -/
def State.stepStart (s : State) (p : Nat) : State :=
  match s.stepNow p with
  | none => s
  | some n => if s.processing p = false ∨ Tab.read (fun _ => 0) s.pln.steps p = n + 1 then s else
    let s1 := { s with pln := { s.pln with steps := Tab.write (fun _ => 0) s.pln.steps p (n + 1) } }.settleSeqs p
    let qs := ((s1.partSeqs p).map (fun i => s1.bandQueue (seqStream (s1.seq i)) (seqView (s1.seq i)))).eraseDups
    let s2 := qs.foldl (fun x q => if q = noQueue then x else x.drainBands p q (x.qHeld q)) s1
    (s2.pln.models.filter (fun m => decide (m.part = p))).foldl (fun x m => x.stepModel m 0 (pkgStages m.pkg)) s2

/-! ### Planning (R206, R217, R218) -/

/-- An event of planner firmware (Table 19.1). -/
def State.plnErr (s : State) (b p core code addr : Nat) : State :=
  s.raise { idx := 8, unit := p % 2, bit := b, part := some p, aux := core, detail := code, addr := addr }

/-! ### JOB entries (R347 to R349) -/

/-- The job queue of a partition (Table 15.6). -/
def State.jobQueue (s : State) (p : Nat) : Nat := s.partFld p 10 0 14

/-- The entry error of a JOB entry (R349); 0 none. -/
def State.jobErr (s : State) (p : Nat) (e : Desc64) : Nat :=
  let v := e.toNat
  let first := bits v 32 8
  let last := bits v 40 8
  if bits v 0 8 ≠ 0x30 then 1
  else if (jobHandles e).any (fun h => !(s.handleOk h) || !((s.buf (hIdx h)).holders.contains (hostHolder p))) then 2
  else match s.model p (bits v 16 16) with
    | none => 3
    | some m =>
      if last < first ∨ pkgStages m.pkg ≤ last then 4
      else if bits v 48 8 = 0 ∨ 64 < bits v 48 8 then 5
      else if v.testBit 9 && decide (bits v (8 * 48) 64 % 16 ≠ 0) then 6
      else 0

/-- JOB (R347, R348): the next entry of a partition's job queue is taken; its buffers are shared to the planner, and the job handed over; an entry error runs nothing, writes its word and performs its signal. -/
def State.fetchJob (s : State) (p : Nat) (e : Desc64) : State :=
  let q := s.jobQueue p
  if q = noQueue ∨ s.qEnabled q = false ∨ s.qHeld q = 0 ∨ s.processing p = false ∨ s.classS p = true then s
  else
    let s1 := s.takeSubmission q
    let err := s.jobErr p e
    if err ≠ 0 then s1.jobWord p e 0 err
    else
      let s2 := (jobHandles e).foldl (fun x h => (x.share p (hostHolder p) h (plnHolder p) (hostHolder p)).1) s1
      let v := e.toNat
      let j : Job := { num := s2.pln.nextJob, part := p, model := bits v 16 16, stage := bits v 32 8, entry := some e, last := bits v 40 8 }
      { s2 with pln := { s2.pln with nextJob := (s2.pln.nextJob + 1) % 4096, jobs := s2.pln.jobs ++ [j] } }

end Sys2Proof.Machine
end

