-- ==== Sys2Proof/Machine/PixelFront.lean ====
section
/-!
DEFINITION. The pixel front ends: views, the conversion chain, bands, regions of interest, the encoder view (R107 to R127).
-/
namespace Sys2Proof.Machine

/-! ### Views (Table 5.1) -/

/-- A field of a view descriptor: byte, first bit, length. -/
def State.vw (s : State) (st v byte lo len : Nat) : Nat := bits (s.rdWords (Reg.pfeView st v) 16) (8 * byte + lo) len

/-- Is the view in use? -/
def State.vwValid (s : State) (st v : Nat) : Bool := s.vw st v 0 0 1 == 1
/-- Clockwise quarter turns. -/
def State.vwRot (s : State) (st v : Nat) : Nat := s.vw st v 0 2 2
/-- Space-to-depth factor. -/
def State.vwS2d (s : State) (st v : Nat) : Nat := match s.vw st v 0 6 2 with | 1 => 2 | 2 => 4 | _ => 1
/-- Bayer source. -/
def State.vwBayer (s : State) (st v : Nat) : Bool := s.vw st v 1 4 1 == 1
/-- Samples per frame; view 0 has one. -/
def State.vwSamples (s : State) (st v : Nat) : Nat := if v = 0 then 1 else max 1 (s.vw st v 2 0 7)
/-- Tensor rows per band. -/
def State.vwBandRows (s : State) (st v : Nat) : Nat := max 1 (s.vw st v 3 0 8)
/-- Tensor width and height. -/
def State.vwTw (s : State) (st v : Nat) : Nat := s.vw st v 16 0 16 / s.vwS2d st v
/-- Tensor height. -/
def State.vwTh (s : State) (st v : Nat) : Nat := s.vw st v 18 0 16 / s.vwS2d st v
/-- Bands per sample: ceil(H / (s × r)). -/
def State.vwBands (s : State) (st v : Nat) : Nat := ceilDiv (s.vw st v 18 0 16) (s.vwS2d st v * s.vwBandRows st v)
/-- Size of the scaled image before rotation: width. -/
def State.vwPreW (s : State) (st v : Nat) : Nat := if s.vwRot st v % 2 = 1 then s.vw st v 14 0 16 else s.vw st v 12 0 16
/-- Size of the scaled image before rotation: height. -/
def State.vwPreH (s : State) (st v : Nat) : Nat := if s.vwRot st v % 2 = 1 then s.vw st v 12 0 16 else s.vw st v 14 0 16
/-- Colour channels after stage 5 (Table 5.3). -/
def State.vwColours (s : State) (st v : Nat) : Nat :=
  if s.vwBayer st v then 4
  else match s.vw st v 1 0 4 with
    | 0 => if s.stFormat st = 0x24 ∨ st < 64 then 3 else if s.stFormat st = 0x1E ∨ s.stFormat st = 0x1F then 3 else 1
    | 6 => 1
    | _ => 3
/-- Blocks per position. -/
def State.vwCb (s : State) (st v : Nat) : Nat := ceilDiv (s.vwColours st v * s.vwS2d st v * s.vwS2d st v) 16
/-- Bytes of a scratchpad slot (R116). -/
def State.vwSlot (s : State) (st v : Nat) : Nat := s.vwBandRows st v * s.vwTw st v * s.vwCb st v * 32
/-- Writes to a pool? -/
def State.vwPool (s : State) (st v : Nat) : Bool := s.vw st v 28 0 2 == 1
/-- The first named bank, and how many. -/
def State.vwBanks (s : State) (st v : Nat) : Nat × Nat := (s.vw st v 30 0 4, s.vw st v 30 4 4 + 1)
/-- Scratchpad slots. -/
def State.vwSlots (s : State) (st v : Nat) : Nat := max 1 (s.vw st v 31 0 8)

/-- Is a factor scaled / size within 1/16 to 4? -/
def factorOk (scaled size : Nat) : Bool := decide (size ≤ 16 * scaled) && decide (scaled ≤ 4 * size) && decide (0 < size)

/-- R108: is the descriptor accepted? -/
def State.viewOk (s : State) (st v : Nat) : Bool :=
  let p := s.stPart st
  let cw := s.vw st v 8 0 16
  let ch := s.vw st v 10 0 16
  let half := fun (n : Nat) => if s.vwBayer st v then n / 2 else n
  let cores := s.vw st v 29 0 8
  let banks := s.vwBanks st v
  let mask := (2 ^ banks.2 - 1) <<< banks.1
  (v != 0 || (factorOk (s.vwPreW st v) (half cw) && factorOk (s.vwPreH st v) (half ch)))
  && decide (s.vw st v 20 0 16 + s.vw st v 12 0 16 ≤ s.vw st v 16 0 16)
  && decide (s.vw st v 22 0 16 + s.vw st v 14 0 16 ≤ s.vw st v 18 0 16)
  && decide (s.vw st v 16 0 16 % s.vwS2d st v = 0) && decide (s.vw st v 18 0 16 % s.vwS2d st v = 0)
  && (!(s.vwBayer st v) || decide ((s.vw st v 4 0 16 + s.vw st v 6 0 16 + cw + ch) % 2 = 0 ∧ s.vw st v 4 0 16 % 2 = 0 ∧ s.vw st v 6 0 16 % 2 = 0 ∧ cw % 2 = 0))
  && decide (s.vw st v 0 6 2 ≠ 3) && (decide (v = 0) == (s.vw st v 0 1 1 == 0))
  && (s.vwPool st v
      || (decide (s.vw st v 32 0 32 + s.vwSlots st v * s.vwSlot st v ≤ banks.2 * 0x40000) && decide (banks.1 + banks.2 ≤ 16)
        && loopUp 8 (fun c b => b && (!(cores.testBit c) || decide (s.scratchMask p c &&& mask = mask))) true))
  && s.inSyncRange p (s.vw st v 24 0 16)
  && (decide (s.vw st v 26 0 14 = noQueue) || s.inQueueRange p (s.vw st v 26 0 14)
      || (decide (s.qType (s.vw st v 26 0 14) = 2) && decide (s.qOwner (s.vw st v 26 0 14) = p)))
  && (s.vwPool st v || decide (s.vw st v 36 0 16 = noSync) || s.inSyncRange p (s.vw st v 36 0 16))

/-- An event of a front end (Table 19.1: detail stream). -/
def State.pfeEvent (s : State) (b st : Nat) (addr : Nat) : State :=
  s.raise { idx := 5, unit := s.stFrontEnd st, bit := b, part := some (s.stPart st), detail := st, addr := addr }

/-- VIEW_DESCRIPTOR_WRITE (R107, R108): one word by the PF; refused while the stream is not idle; a valid descriptor that breaks R108 becomes invalid. -/
def State.viewWrite (s : State) (st v word x : Nat) : State :=
  let busy := decide (s.stRun st ≠ 0) || (decide (st < 64) && decide (s.decState st ≠ 0))
  if busy then s.pfeEvent 1 st 0xFFFFFFFFFFFFFFFF
  else
    let s1 := s.wr (Reg.pfeView st v + 4 * word) x
    if s1.vwValid st v && !(s1.viewOk st v) then (s1.setFld (Reg.pfeView st v) 0 1 0).pfeEvent 0 st 0xFFFFFFFFFFFFFFFF else s1

/-! ### State of a front end -/

/-- What a front end keeps of a stream. -/
def State.feS (s : State) (st : Nat) : FeStream := Tab.read (fun _ => {}) s.pfe.strm st

/-- What a front end keeps of a stream, changed. -/
def State.updFe (s : State) (st : Nat) (f : FeStream → FeStream) : State :=
  { s with pfe := { s.pfe with strm := Tab.write (fun _ => {}) s.pfe.strm st (f (s.feS st)) } }

/-- A frame of a stream changed. -/
def State.updFeFrame (s : State) (st counter : Nat) (f : FeFrame → FeFrame) : State :=
  s.updFe st (fun x => { x with frames := x.frames.map (fun y => if y.counter = counter then f y else y) })

/-- The band that a front end computes. -/
def State.bandRun (s : State) (f : Nat) : Option BandRun := Tab.read (fun _ => none) s.pfe.run f

/-- The band of a front end replaced, and PFE_STATUS with it. -/
def State.setRun (s : State) (f : Nat) (r : Option BandRun) : State :=
  let s1 := { s with pfe := { s.pfe with run := Tab.write (fun _ => none) s.pfe.run f r } }
  match r with
  | none => s1.wr (Reg.pfeStatus f) 0
  | some b => s1.wr (Reg.pfeStatus f) (1 + (b2n b.check) <<< 1 + b.stream <<< 2 + b.band.view <<< 9 + b.band.sample <<< 11 + b.band.band <<< 17)

/-- The front ends that compute a stream's bands: its own, and for class S the checker `fe` XOR 1 (R121). -/
def State.bandEngines (s : State) (fe st : Nat) : List Nat := if s.stClassS st then [fe, fe ^^^ 1] else [fe]

/-- A band is put on its front end, and on the checker of a class S stream. -/
def State.occupy (s : State) (fe : Nat) (r : BandRun) : State :=
  (s.bandEngines fe r.stream).foldl (fun (x : State) f => x.setRun f (some { r with check := decide (f ≠ fe) })) s

/-- A band leaves its front end and its checker. -/
def State.vacate (s : State) (fe : Nat) (r : BandRun) : State :=
  (s.bandEngines fe r.stream).foldl (fun (x : State) f => x.setRun f none) s

/-! ### Source lines -/

/-- The source height and width of a view, in picture pixels. -/
def State.srcW (s : State) (st : Nat) : Nat := s.stWidth st
/-- The source height. -/
def State.srcH (s : State) (st : Nat) : Nat := s.stHeight st

/-- The concealed lines of a CSI-2 frame as ingress has them now, and whether it is corrupt (R56). -/
def State.csiBad (s : State) (st : Nat) (f : FeFrame) : List Nat × Bool :=
  let x := s.inS st
  let lim := s.strmFld st 38 0 16
  if f.closed then (f.bad, f.corrupt)
  else match x.csi with
    | some c => if c.counter = f.counter then (c.bad, decide (lim < c.bad.length)) else (f.bad, f.corrupt)
    | none => (f.bad, f.corrupt)

/-- Is line `y` of a frame's source concealed (R113)? -/
def State.lineConcealed (s : State) (st : Nat) (f : FeFrame) (y : Nat) : Bool :=
  match f.pic, f.info with
  | some h, some i => (s.rowStatus (s.bufAddr h) (y / i.rowH)).testBit 1
  | _, _ => (s.csiBad st f).1.contains y

/-- The line that a reader of the ring receives for line `y`: the nearest good one at or above it (R56). -/
def goodAbove (bad : List Nat) : Nat → Option Nat
  | 0 => if bad.contains 0 then none else some 0
  | n + 1 => if bad.contains (n + 1) then goodAbove bad n else some (n + 1)

/-- The byte address of line `y` of a CSI-2 frame in its ring. -/
def State.ringLine (s : State) (st y : Nat) : Nat :=
  s.bufAddr ((s.inS st).ring.getD 0) + (y % max 1 (s.stRingLines st)) * lineBytes (s.stFormat st) (s.stWidth st)

/-- Sample `k` of a packed CSI-2 line: address, bytes to read, and its value from them (the packing of MIPI CSI-2, log entry 18). -/
def State.csiSample (s : State) (dt base k : Nat) : Nat :=
  let by_ := fun (o : Nat) => (s.rdByte (base + o)).toNat
  match dt with
  | 0x2B => 4 * by_ (5 * (k / 4) + k % 4) + bits (by_ (5 * (k / 4) + 4)) (2 * (k % 4)) 2
  | 0x1F => 4 * by_ (5 * (k / 4) + k % 4) + bits (by_ (5 * (k / 4) + 4)) (2 * (k % 4)) 2
  | 0x2C => 16 * by_ (3 * (k / 2) + k % 2) + bits (by_ (3 * (k / 2) + 2)) (4 * (k % 2)) 4
  | 0x2D => 64 * by_ (7 * (k / 4) + k % 4) + bits (s.rdMem (base + 7 * (k / 4) + 4) 3) (6 * (k % 4)) 6
  | 0x2E => s.rdMem (base + 2 * k) 2
  | _ => by_ k

/-- The packed group that sample `k` of a line stands in: its offset and bytes. -/
def packedAt (dt k : Nat) : Nat × Nat :=
  match dt with
  | 0x2B => (5 * (k / 4), 5)
  | 0x1F => (5 * (k / 4), 5)
  | 0x2C => (3 * (k / 2), 3)
  | 0x2D => (7 * (k / 4), 7)
  | 0x2E => (2 * k, 2)
  | _ => (k, 1)

/-- Bits per sample of the source. -/
def State.srcBits (s : State) (st : Nat) (i : Option PicInfo) : Nat :=
  match i with
  | some p => if p.format = 1 then 10 else 8
  | none => match s.stFormat st with | 0x1F => 10 | 0x2B => 10 | 0x2C => 12 | 0x2D => 14 | 0x2E => 16 | _ => 8

/-- Samples of a CSI-2 pixel `x` for plane `c`: RGB888 comes as B, G, R, YUV422 as Cb, Y, Cr, Y (log entry 18). -/
def csiIndex (dt c x : Nat) : Nat :=
  match dt with
  | 0x24 => 3 * x + (2 - c)
  | 0x1E => if c = 0 then 2 * x + 1 else 4 * x + (if c = 1 then 0 else 2)
  | 0x1F => if c = 0 then 2 * x + 1 else 4 * x + (if c = 1 then 0 else 2)
  | _ => x

/-- The address of sample (x, y) of plane `c` of a decoded picture. -/
def State.picAddr (s : State) (h : Nat) (i : PicInfo) (c x y : Nat) : Nat :=
  let b := s.bufAddr h
  let cb := b + i.chromaOff + i.stride * y
  if c = 0 then b + 0x1000 + i.stride * y + x * i.bps
  else match i.format.toNat with
    | 3 => cb + (if c = 2 then i.stride * i.planeH else 0) + x
    | _ => cb + (2 * x + (c - 1)) * i.bps

/-- A sample (x, y) of plane `c` of a decoded picture's buffer. -/
def State.picSample (s : State) (hd : Nat) (i : PicInfo) (c x y : Nat) : Nat :=
  if i.format = 4 ∧ c ≠ 0 then 128
  else if i.format = 1 then bits (s.rdMem (s.picAddr hd i c x y) 2) 6 10
  else (s.rdByte (s.picAddr hd i c x y)).toNat

/-- The source sample (x, y) of plane `c`; a reader of the ring is given the nearest good line (R56). -/
def State.srcSample (s : State) (st : Nat) (f : FeFrame) (c x y : Nat) : Int :=
  match f.pic, f.info with
  | some hd, some i => (s.picSample hd i c x y : Nat)
  | _, _ =>
    match goodAbove (s.csiBad st f).1 y with
    | none => (s.strmFld st 30 0 16 : Nat)
    | some g => (s.csiSample (s.stFormat st) (s.ringLine st g) (csiIndex (s.stFormat st) c x) : Nat)

/-- Does reading the source sample (x, y) of plane `c` meet an uncorrectable word (R113)? -/
def State.srcUncorr (s : State) (st : Nat) (f : FeFrame) (c x y : Nat) : Bool :=
  match f.pic, f.info with
  | some hd, some i => !(i.format == 4 && decide (c ≠ 0)) && s.uncorr (s.picAddr hd i c x y) i.bps
  | _, _ =>
    match goodAbove (s.csiBad st f).1 y with
    | none => false
    | some g =>
      let o := packedAt (s.stFormat st) (csiIndex (s.stFormat st) c x)
      s.uncorr (s.ringLine st g + o.1) o.2

/-! ### Scaling (R110 to R112) -/

/-- A source coordinate in 1/64: floor and phase, phase 64 being phase 0 of the next sample. `num / den` is u. -/
def tapPos (num den : Int) : Int × Nat :=
  let u64 := (128 * num + den) / (2 * den)
  (u64 / 64, (u64 % 64).toNat)

/-- sinc in fixed point. -/
def fxSinc (x : Int) : Int := if x = 0 then fxOne else fxSin (fxMul fxPi x) * 2 ^ 96 / fxMul fxPi x

/-- The unscaled built-in weight of tap `k` at phase `p`, for a = an / ad (R111). -/
def sincWeight (an ad : Int) (p k : Nat) : Int :=
  let t : Int := (64 * ((k : Int) - 3) - (p : Int)) * fxOne / 64
  if (4 * fxOne : Int) ≤ (t.natAbs : Int) then 0
  else fxMul (fxSinc (t * an / ad)) (fxSinc (t / 4))

/-- Nearest integer of a / b for b > 0, ties away from zero. -/
def roundDivInt (a b : Int) : Int :=
  if 0 ≤ a then (2 * a + b) / (2 * b) else -((2 * (-a) + b) / (2 * b))

/-- The 8 built-in coefficients of a phase for the factor `fn / fd` (R111): scaled to 256, the rounding error on the largest tap. -/
def builtIn (fn fd : Nat) (p : Nat) : List Int :=
  let an : Int := if fd < fn then 1 else if 4 * fn < fd then 1 else fn
  let ad : Int := if fd < fn then 1 else if 4 * fn < fd then 4 else max 1 fd
  let w := (List.range 8).map (fun k => sincWeight an ad p k)
  let sum := w.foldl (fun a b => a + b) 0
  let r := w.map (fun x => roundDivInt (256 * x) (max 1 sum))
  let err := 256 - r.foldl (fun a b => a + b) 0
  let big := r.foldl (fun a b => max a b) 0
  match r.findIdx? (fun x => decide (x = big)) with
  | some i => updAt r i (fun x => x + err)
  | none => r

/-- The coefficients that a view uses at a phase: built-in, or table A or B of its front end. -/
def State.coefs (s : State) (st v fn fd p : Nat) : List Int :=
  let f := s.stFrontEnd st
  let tab := fun (base : Nat) => (List.range 8).map (fun k => sint 10 (bits (s.rd (base + 16 * p + 4 * (k / 2))) (16 * (k % 2)) 10))
  match s.vw st v 28 2 2 with
  | 1 => tab (Reg.pfeCoefA f 0 0)
  | 2 => tab (Reg.pfeCoefB f 0 0)
  | _ => builtIn fn fd p

/-- A plane's grid: its size, and where its samples stand in the source. -/
structure Grid where
  c : Nat
  w : Nat
  h : Nat
  /-- Subsampling of the plane on each axis. -/
  sx : Nat := 1
  sy : Nat := 1
  /-- Sample (x, y) of the grid is sample (k · x + px, k · y + py) of plane `c`: k = 2 for a half-size plane of a Bayer mosaic. -/
  k : Nat := 1
  px : Nat := 0
  py : Nat := 0
  deriving DecidableEq, Repr

/-- The grid of plane `c` of a frame's source (R112): chroma of 4:2:0 and 4:2:2 is half as wide, of 4:2:0 half as high. -/
def State.gridOf (s : State) (st : Nat) (i : Option PicInfo) (c : Nat) : Grid :=
  let w := s.srcW st
  let h := s.srcH st
  match i with
  | some p =>
    if c = 0 then { c := 0, w := w, h := h }
    else match p.format.toNat with
      | 0 => { c := c, w := w / 2, h := h / 2, sx := 2, sy := 2 }
      | 1 => { c := c, w := w / 2, h := h / 2, sx := 2, sy := 2 }
      | 2 => { c := c, w := w / 2, h := h, sx := 2 }
      | _ => { c := c, w := w, h := h }
  | none => if c ≠ 0 ∧ (s.stFormat st = 0x1E ∨ s.stFormat st = 0x1F) then { c := c, w := w / 2, h := h, sx := 2 } else { c := c, w := w, h := h }

/-- The Bayer planes R, Gr, Gb, B: the place of each in a 2 × 2 quad for a phase (Table 5.1). -/
def cfaPlace (phase c : Nat) : Nat × Nat :=
  match phase, c with
  | 0, 0 => (0, 0) | 0, 1 => (1, 0) | 0, 2 => (0, 1) | 0, _ => (1, 1)
  | 1, 0 => (1, 0) | 1, 1 => (0, 0) | 1, 2 => (1, 1) | 1, _ => (0, 1)
  | 2, 0 => (0, 1) | 2, 1 => (1, 1) | 2, 2 => (0, 0) | 2, _ => (1, 0)
  | _, 0 => (1, 1) | _, 1 => (0, 1) | _, 2 => (1, 0) | _, _ => (0, 0)

/-- The half-size plane `c` of a Bayer mosaic (Table 5.2, stage 1). -/
def State.bayerGrid (s : State) (st v c : Nat) : Grid :=
  let p := cfaPlace (s.vw st v 1 5 2) c
  { c := 0, w := s.srcW st / 2, h := s.srcH st / 2, k := 2, px := p.1, py := p.2 }

/-- The planes that a view's stage 5 reads (Table 5.3). -/
def State.viewPlanes (s : State) (st v : Nat) (i : Option PicInfo) : List Grid :=
  if s.vwBayer st v then (List.range 4).map (s.bayerGrid st v)
  else match s.vw st v 1 0 4 with
    | 0 => (List.range (s.vwColours st v)).map (s.gridOf st i)
    | 6 => [s.gridOf st i 0]
    | _ => (List.range 3).map (s.gridOf st i)

/-- Where a sample of a grid stands in its plane, edges repeated (R110). -/
def Grid.at_ (g : Grid) (x y : Int) : Nat × Nat :=
  (g.k * (clampInt 0 ((g.w : Int) - 1) x).toNat + g.px, g.k * (clampInt 0 ((g.h : Int) - 1) y).toNat + g.py)

/-- u of output position `i` on an axis (R110) on the plane's grid, as num / den: u0 + (i + 1/2) × size / scaled − 1/2, then u / 2 horizontally and (u − 1/2) / 2 vertically for subsampled chroma. -/
def axisU (u0 size scaled i sub : Nat) (vertical : Bool) : Int × Int :=
  let num : Int := 2 * (u0 : Int) * scaled + (2 * (i : Int) + 1) * size - scaled
  let den : Int := 2 * max 1 scaled
  if sub = 1 then (num, den)
  else if vertical then (2 * num - den, 4 * den)
  else (num, 2 * den)

/-- The tap position of output position (ox, oy) on each axis of a grid: the sample at or before u, and its phase. -/
def Grid.taps (g : Grid) (win : Region) (pw ph ox oy : Nat) : (Int × Nat) × (Int × Nat) :=
  let xu := axisU (win.x / g.k) (win.w / g.k) pw ox g.sx false
  let yu := axisU (win.y / g.k) (win.h / g.k) ph oy g.sy true
  (tapPos xu.1 xu.2, tapPos yu.1 yu.2)

/-- One value scaled by the 8-tap separable filter: horizontal over each of 8 lines, kept as 16 bits, then vertical, clamped (R110). -/
def State.scaledAt (s : State) (st v : Nat) (f : FeFrame) (g : Grid) (win : Region) (pw ph ox oy : Nat) : Int :=
  let p := g.taps win pw ph ox oy
  let cx := s.coefs st v (pw * g.sx) (win.w / g.k) p.1.2
  let cy := s.coefs st v (ph * g.sy) (win.h / g.k) p.2.2
  let line := fun (dy : Nat) =>
    let sum := (cx.zipIdx).foldl (fun (a : Int) e =>
      let q := g.at_ (p.1.1 - 3 + (e.2 : Int)) (p.2.1 - 3 + (dy : Int))
      a + e.1 * s.srcSample st f g.c q.1 q.2) 0
    sint 16 (ofSint 16 ((sum + 128) / 256))
  let sum := (cy.zipIdx).foldl (fun (a : Int) e => a + e.1 * line e.2) 0
  clampInt 0 (2 ^ s.srcBits st f.info - 1) ((sum + 128) / 256)

/-! ### Colour (R112, Table 5.3) -/

/-- The rows of a conversion code, in 1/10,000: luma gain and the Cb and Cr gains of R, G and B, and whether the range is limited. -/
def colourRows (code : Nat) : (Int × List (Int × Int)) × Bool :=
  match code with
  | 1 => ((11644, [(0, 15960), (-3918, -8130), (20172, 0)]), true)
  | 2 => ((10000, [(0, 14020), (-3441, -7141), (17720, 0)]), false)
  | 3 => ((11644, [(0, 17927), (-2132, -5329), (21124, 0)]), true)
  | _ => ((10000, [(0, 15748), (-1873, -4681), (18556, 0)]), false)

/-- A value of the conversion in 1/10,000, clamped to [0, 2^B − 1], as FP32 (log entry 19). -/
def clampTenK (bd : Nat) (v : Int) : Nat :=
  fpDivG true (fpOfInt (clampInt 0 (10000 * (2 ^ bd - 1)) v)) (fpOfInt 10000)

/-- The colour channels of one scaled position. -/
def State.colours (s : State) (st v : Nat) (f : FeFrame) (win : Region) (pw ph ox oy : Nat) : List Nat :=
  let bd := s.srcBits st f.info
  let at_ := fun (c : Nat) => s.scaledAt st v f (s.gridOf st f.info c) win pw ph ox oy
  if s.vwBayer st v then (List.range 4).map (fun c => fpOfInt (s.scaledAt st v f (s.bayerGrid st v c) win pw ph ox oy))
  else
    let code := s.vw st v 1 0 4
    if code = 0 ∨ code = 5 then (List.range (s.vwColours st v)).map (fun c => fpOfInt (at_ c))
    else if code = 6 then [fpOfInt (at_ 0)]
    else
      let k := 2 ^ (bd - 8)
      let r := colourRows code
      let y : Int := at_ 0 - (if r.2 then 16 * k else 0)
      let cb : Int := at_ 1 - 128 * k
      let cr : Int := at_ 2 - 128 * k
      r.1.2.map (fun g => clampTenK bd (r.1.1 * y + g.1 * cb + g.2 * cr))

/-! ### Bands -/

/-- The position before `rot` clockwise quarter turns of what lies at (x, y) of a turned image of `w` × `h`. -/
def unturn (rot w h x y : Nat) : Nat × Nat :=
  match rot with
  | 1 => (y, w - 1 - x)
  | 2 => (w - 1 - x, h - 1 - y)
  | 3 => (h - 1 - y, x)
  | _ => (x, y)

/-- The scaled position before rotation that lies at (x, y) of the image after rotation and flips (stage 4). -/
def State.unrotate (s : State) (st v x y : Nat) : Nat × Nat :=
  let w := s.vw st v 12 0 16
  let h := s.vw st v 14 0 16
  let x1 := if s.vw st v 0 4 1 = 1 then w - 1 - x else x
  let y1 := if s.vw st v 0 5 1 = 1 then h - 1 - y else y
  unturn (s.vwRot st v) w h x1 y1

/-- (x − mean) × scale of channel `c` (stages 6, 7). -/
def State.normalise (s : State) (st v c x : Nat) : Nat :=
  fpMul (fpSub x (fp16to32 (s.vw st v (40 + 2 * c) 0 16))) (fp16to32 (s.vw st v (48 + 2 * c) 0 16))

/-- Is a canvas position inside the image? -/
def State.inImage (s : State) (st v x y : Nat) : Bool :=
  let l := s.vw st v 20 0 16
  let t := s.vw st v 22 0 16
  decide (l ≤ x) && decide (x < l + s.vw st v 12 0 16) && decide (t ≤ y) && decide (y < t + s.vw st v 14 0 16)

/-- The normalised colour channels of a canvas position (stages 1 to 7). -/
def State.canvasAt (s : State) (st v : Nat) (f : FeFrame) (win : Region) (x y : Nat) : List Nat :=
  if s.inImage st v x y then
    let o := s.unrotate st v (x - s.vw st v 20 0 16) (y - s.vw st v 22 0 16)
    ((s.colours st v f win (s.vwPreW st v) (s.vwPreH st v) o.1 o.2).zipIdx).map (fun e => s.normalise st v e.2 e.1)
  else (List.range (s.vwColours st v)).map (fun c => s.normalise st v c (fpOfInt (s.vw st v (56 + 2 * c) 0 16)))

/-- Did a tap of a canvas position read a concealed line, on any plane that the view reads (R113)? -/
def State.tapConcealed (s : State) (st v : Nat) (f : FeFrame) (win : Region) (x y : Nat) : Bool :=
  let o := s.unrotate st v (x - s.vw st v 20 0 16) (y - s.vw st v 22 0 16)
  (s.viewPlanes st v f.info).any (fun g =>
    let p := g.taps win (s.vwPreW st v) (s.vwPreH st v) o.1 o.2
    (List.range 8).any (fun dy => s.lineConcealed st f (g.sy * (g.at_ 0 (p.2.1 - 3 + (dy : Int))).2)))

/-- Did any tap of a canvas position read an uncorrectable word (R113)? -/
def State.tapPoison (s : State) (st v : Nat) (f : FeFrame) (win : Region) (x y : Nat) : Bool :=
  if s.ecc.isEmpty then false
  else
    let o := s.unrotate st v (x - s.vw st v 20 0 16) (y - s.vw st v 22 0 16)
    (s.viewPlanes st v f.info).any (fun g =>
      let p := g.taps win (s.vwPreW st v) (s.vwPreH st v) o.1 o.2
      (List.range 8).any (fun dy => (List.range 8).any (fun dx =>
        let q := g.at_ (p.1.1 - 3 + (dx : Int)) (p.2.1 - 3 + (dy : Int))
        s.srcUncorr st f g.c q.1 q.2)))

/-- The SE12 block `cb` of tensor position (tx, ty) of a sample (stages 8, 9, R113). -/
def State.feBlock (s : State) (st v : Nat) (f : FeFrame) (win : Region) (tx ty cb : Nat) (kill : Bool) : Nat :=
  let sf := s.vwS2d st v
  let nc := s.vwColours st v
  let pos := (List.range (sf * sf)).map (fun k => (tx * sf + k % sf, ty * sf + k / sf))
  let all := pos.flatMap (fun p => s.canvasAt st v f win p.1 p.2)
  let vals := (List.range 16).map (fun i => if 16 * cb + i < nc * sf * sf then (all[16 * cb + i]?).getD 0 else 0)
  let inside := pos.filter (fun p => s.inImage st v p.1 p.2)
  let conc := inside.any (fun p => s.tapConcealed st v f win p.1 p.2)
  let status := 2 * b2n conc + 4 * b2n inside.isEmpty
  if kill || inside.any (fun p => s.tapPoison st v f win p.1 p.2) then poisonBlock status else se12Of vals status

/-- Tensor rows of band `n`. -/
def State.bandHeight (s : State) (st v n : Nat) : Nat := min (s.vwBandRows st v) (s.vwTh st v - n * s.vwBandRows st v)

/-- All blocks of a band in the channel-blocked layout (R161), as bytes from the first block on; and whether any is poisoned. -/
def State.bandData (s : State) (st : Nat) (f : FeFrame) (b : Band) (kill : Bool) : Nat × Bool :=
  let tw := s.vwTw st b.view
  let cbs := s.vwCb st b.view
  let n := s.bandHeight st b.view b.band * tw * cbs
  loopUp n (fun k (acc : Nat × Bool) =>
    let pos := k / cbs
    let blk := s.feBlock st b.view f b.win (pos % tw) (b.band * s.vwBandRows st b.view + pos / tw) (k % cbs) kill
    (acc.1 + blk <<< (256 * k), acc.2 || blkPoison blk)) (0, false)

/-- The canvas rows of a band that hold image rows, as first and last image row; none for a band of padding. -/
def State.bandImageRows (s : State) (st : Nat) (b : Band) : Option (Nat × Nat) :=
  let sf := s.vwS2d st b.view
  let r := s.vwBandRows st b.view
  let t := s.vw st b.view 22 0 16
  let h := s.vw st b.view 14 0 16
  let lo := max t (sf * r * b.band)
  let hi := min (t + h) (min (s.vw st b.view 18 0 16) (sf * r * (b.band + 1)))
  if lo < hi then some (lo - t, hi - 1 - t) else none

/-- Source rows `a` to `z` of a view with the halo of R115: 3 rows above to 4 below, clamped to the picture; in half-size rows for a Bayer source. -/
def State.withHalo (s : State) (st v : Nat) (a z : Int) : Nat × Nat :=
  let bay := s.vwBayer st v
  let lim := (if bay then s.srcH st / 2 else s.srcH st) - 1
  let c := fun (x : Int) => (clampInt 0 (lim : Int) x).toNat
  if bay then (2 * c (a - 3), 2 * c (z + 4) + 1) else (c (a - 3), c (z + 4))

/-- The window of a band in source lines (R115): 3 rows above the first source row that its image rows map to, to 4 below the last; none for a band of padding. -/
def State.bandWindow (s : State) (st : Nat) (b : Band) : Option (Nat × Nat) :=
  let k := if s.vwBayer st b.view then 2 else 1
  match s.bandImageRows st b with
  | none => none
  | some (lo, hi) =>
    let row := fun (i : Nat) => let u := axisU (b.win.y / k) (b.win.h / k) (s.vwPreH st b.view) i 1 true; (tapPos u.1 u.2).1
    if s.vwRot st b.view % 2 = 1 then some (s.withHalo st b.view (row 0) (row (s.vwPreH st b.view - 1)))
    else
      let a := (s.unrotate st b.view 0 lo).2
      let z := (s.unrotate st b.view 0 hi).2
      some (s.withHalo st b.view (row (min a z)) (row (max a z)))

/-- The last source line that a band waits for: of its window (R115); with a rotation or a vertical flip, of the view's whole window with its halo (R114). -/
def State.waitLine (s : State) (st : Nat) (b : Band) : Option Nat :=
  let k := if s.vwBayer st b.view then 2 else 1
  if s.vwRot st b.view ≠ 0 ∨ s.vw st b.view 0 5 1 = 1 then some (s.withHalo st b.view 0 (((b.win.y + b.win.h) / k : Nat) - 1)).2
  else (s.bandWindow st b).map (fun w => w.2)

/-- Is a band's window final at the source (R115)? -/
def State.sourceMet (s : State) (st : Nat) (f : FeFrame) (b : Band) : Bool :=
  match s.waitLine st b with
  | none => true
  | some l =>
    match f.info with
    | some i => decide (f.base + min i.rows (ceilDiv (l + 1) i.rowH + 1) ≤ s.syncVal (s.rowSync st))
    | none =>
      let g := max 1 (s.strmFld st 14 0 16)
      decide (f.base + min (s.srcH st) (g * ceilDiv (l + 1) g) ≤ s.syncVal (s.stStored st))

/-- Is a band's output available (R116)? -/
def State.outputMet (s : State) (st : Nat) (b : Band) : Bool :=
  let cs := s.vw st b.view 36 0 16
  if s.vwPool st b.view || decide (cs = noSync) then true
  else decide ((((s.feS st).bases[b.view]?).getD 0) + b.count + 1 ≤ s.syncVal cs + s.vwSlots st b.view)

/-- The device address of a band: its pool buffer, or its slot in the lowest core of core_mask (R116). -/
def State.bandAddr (s : State) (st : Nat) (b : Band) (c : Nat) : Nat :=
  match b.handle with
  | some h => s.bufAddr h
  | none => scratchAddr c (s.vwBanks st b.view).1 + s.vw st b.view 32 0 32 + (b.count % s.vwSlots st b.view) * s.vwSlot st b.view

/-- The cores of a view's core_mask. -/
def State.vwCores (s : State) (st v : Nat) : List Nat := (List.range 8).filter (fun c => (s.vw st v 29 0 8).testBit c)

/-- The concealment of a frame now: marked corrupt, or a picture that carries concealed (R118). -/
def State.frameConcealed (s : State) (st : Nat) (f : FeFrame) : Bool :=
  match f.pic, f.info with
  | some h, some _ => ((s.rdByte (s.bufAddr h + 14)).toNat).testBit 0 || (match (s.decS st).pic with | some p => decide (p.counter = f.counter) && !p.bad.isEmpty | none => false)
  | _, _ => (s.csiBad st f).2

/-- The band entry (Table 5.4). -/
def State.bandEntry (s : State) (st : Nat) (f : FeFrame) (b : Band) (addr flags : Nat) : Nat :=
  let v := b.view
  let last := b.band + 1 = s.vwBands st v
  let fl := flags + (if f.flags.testBit 1 then 16 else 0) + (if last then 32 else 0) + (if b.adjusted then 64 else 0) + (if f.roiStale then 128 else 0)
  0x10 + st <<< 8 + v <<< 16 + b.sample <<< 24 + f.counter <<< 32 + f.ts <<< 64 + addr <<< 128
    + b.band <<< 192 + s.vwBands st v <<< 208 + s.vwTw st v <<< 224 + (b.band * s.vwBandRows st v) <<< 240
    + s.bandHeight st v b.band <<< 256 + s.vwCb st v <<< 264 + fl <<< 272 + b.win.track <<< 288
    + (b.win.x % 65536) <<< 320 + (b.win.y % 65536) <<< 336 + (b.win.w % 65536) <<< 352 + (b.win.h % 65536) <<< 368

/-- Lines that no band of the frame still needs are released (R119), after a band or at Frame End: all above the first window line of the bands left; with no window left, the rest at Frame End. -/
def State.releaseLines (s : State) (st : Nat) (f : FeFrame) : State :=
  if f.info.isSome then s
  else
    let left := f.bands.filterMap (fun b => if b.empty then none else (s.bandWindow st b).map (fun w => w.1))
    let upto := match left with
      | [] => if f.closed then s.srcH st else f.released
      | a :: t => t.foldl min a
    if f.released < upto then
      (s.updFeFrame st f.counter (fun x => { x with released := upto })).signal (s.stReleased st) (upto - f.released)
    else s

/-- Frames that have nothing left leave: a decoded picture's hold is dropped (R84, R119). -/
def State.settleFrames (s : State) (st : Nat) : List FeFrame → State
  | [] => s
  | f :: t =>
    if f.bands.isEmpty && (f.info.isSome || decide (s.srcH st ≤ f.released)) && f.enc.isNone && (f.info.isSome || f.closed) then
      let s1 := s.updFe st (fun x => { x with frames := x.frames.filter (fun y => decide (y.counter ≠ f.counter)) })
      let s2 := match f.pic with
        | some h => ((s1.drop (s.stPart st) (pfeHolder (s.stFrontEnd st)) h).1).decSettle st
        | none => s1
      State.settleFrames s2 st t
    else State.settleFrames s st t

/-- Releases and departures of a stream's frames, after a band or at a Frame End. -/
def State.feSettle (s : State) (st : Nat) : State :=
  let s1 := (s.feS st).frames.foldl (fun x f => x.releaseLines st f) s
  s1.settleFrames st (s1.feS st).frames

/-- A band signalled (R117): 1 added to band_sync, its entry enqueued, its counters, the lines it frees. `addr` 0 for a band without data: empty, hole, or poisoned by R121 and not computed. -/
def State.signalBand (s : State) (st : Nat) (f : FeFrame) (b : Band) (addr flags : Nat) : State :=
  let s1 := s.updFeFrame st f.counter (fun x => { x with bands := x.bands.filter (fun y => !(decide (y.view = b.view) && decide (y.sample = b.sample) && decide (y.band = b.band))) })
  let s2 := if addr ≠ 0 then s1.bump (Reg.pfeStrmBands st) 1 else if flags % 4 ≠ 0 then s1.bump (Reg.pfeStrmEmpty st) 1 else s1
  let s3 := match b.handle with
    | some h =>
      let me := pfeHolder (s.stFrontEnd st)
      if addr = 0 then s2.giveUp (s.stPart st) me h
      else ((s2.share (s.stPart st) me h (holderName 8 2) (holderName 8 2)).1.drop (s.stPart st) me h).1
    | none => s2
  let s4 := s3.signal (s.vw st b.view 24 0 16) 1
  let q := s.vw st b.view 26 0 14
  let s5 := if q = noQueue then s4 else s4.enqueue q (s.bandEntry st f b addr flags)
  (if f.flags.testBit 4 then s5.markSuppressed st b.view f.counter else s5).feSettle st

/-- The hole or concealed treatment of a frame's band: is it a hole (R118)? -/
def State.isHole (s : State) (st : Nat) (f : FeFrame) : Bool := s.frameConcealed st f && s.strmFld st 36 0 1 == 1

/-- The front end's streams. -/
def State.feStreams (s : State) (fe : Nat) : List Nat :=
  (s.pfe.strm.filter (fun e => decide (s.stFrontEnd e.1 = fe))).map (fun e => e.1)

/-- A frame's bands whose source wait is met for the first time carry the time (R115). -/
def State.metFrame (s : State) (st : Nat) (f : FeFrame) : FeFrame :=
  { f with bands := f.bands.map (fun b => if b.met.isNone && (b.empty || s.sourceMet st f b) then { b with met := some s.now } else b) }

/-- The source wait of every band noted when it is first met (R115): at the end of every command. -/
def State.noteMet (s : State) : State :=
  { s with pfe := { s.pfe with strm := s.pfe.strm.map (fun e => (e.1, { e.2 with frames := e.2.frames.map (s.metFrame e.1) })) } }

/-- A band that may start, with its stream and frame. -/
structure Ready where
  st : Nat
  f : FeFrame
  b : Band
  deriving DecidableEq, Repr

/-- Is there a credit of the view's band queue beside those of the bands that run (R18, R255; log entry 100)? -/
def State.bandCredit (s : State) (st v : Nat) : Bool :=
  let q := s.vw st v 26 0 14
  let taken := s.pfe.run.filter (fun e => match e.2 with | some r => !r.check && decide (s.vw r.stream r.band.view 26 0 14 = q) | none => false)
  q = noQueue || decide (taken.length < s.qFree q)

/-- May a band start but for its credit: signalled without data, or its waits met and its engines free (R115 to R118, R121)? -/
def State.bandReady (s : State) (st : Nat) (f : FeFrame) (b : Band) : Bool :=
  b.poison || (b.met.isSome
    && (b.empty || s.isHole st f || (s.outputMet st b && (s.bandEngines (s.stFrontEnd st) st).all (fun e => (s.bandRun e).isNone))))

/-- The bands of a stream that may start: of each view and sample the lowest band left of the oldest frame, its waits met (R115) and a credit free. -/
def State.readyBands (s : State) (st : Nat) : List Ready :=
  ((s.feS st).frames.foldl (fun (acc : List Ready × List Nat) f =>
    f.bands.foldl (fun (a : List Ready × List Nat) b =>
      let key := 64 * b.view + b.sample
      if a.2.contains key then a
      else (if s.bandReady st f b && s.bandCredit st b.view then a.1 ++ [⟨st, f, b⟩] else a.1, a.2 ++ [key])) acc) ([], [])).1

/-- R115's order: higher priority, earlier met wait, lower view, sample, band. -/
def State.readyBefore (s : State) (a b : Ready) : Bool :=
  let k := fun (r : Ready) => [7 - s.stPriority r.st, r.b.met.getD 0, r.b.view, r.b.sample, r.b.band]
  decide (k a < k b)

/-- The next band of a front end. -/
def State.nextBand (s : State) (fe : Nat) : Option Ready :=
  ((s.feStreams fe).flatMap (fun st => s.readyBands st)).foldl (fun acc r =>
    match acc with
    | none => some r
    | some b => if s.readyBefore r b then some r else some b) none

/-- BAND_START (R115): the next ready band of front end `fe`; one without data is signalled at once (R117, R118); a class S band starts on the checker too, and waits while that one computes a band (R121; log entry 97). -/
def State.bandStart (s : State) (fe : Nat) : State :=
  if (s.bandRun fe).isSome then s
  else
    let s1 := s.noteMet
    match s1.nextBand fe with
    | none => s1
    | some r =>
      if r.b.poison then s1.signalBand r.st r.f r.b 0 (8 + b2n r.b.empty)
      else if r.b.empty then s1.signalBand r.st r.f r.b 0 1
      else if s1.isHole r.st r.f then s1.signalBand r.st r.f r.b 0 2
      else s1.occupy fe { stream := r.st, counter := r.f.counter, band := r.b, start := s.now }

/-- The frame of a running band. -/
def State.runFrame (s : State) (r : BandRun) : Option FeFrame := (s.feS r.stream).frames.find? (fun f => decide (f.counter = r.counter))

/-- The addresses that a band's data goes to. -/
def State.bandTargets (s : State) (st : Nat) (b : Band) : List Nat :=
  match b.handle with
  | some h => [s.bufAddr h]
  | none => (s.vwCores st b.view).map (fun c => s.bandAddr st b c)

/-- A running band's blocks written everywhere they go (R109 to R113, R116); reads in error are counted (R278, R279); the checker's work counts on the checker (R121). -/
def State.writeBand (s : State) (fe : Nat) (r : BandRun) (f : FeFrame) (kill : Bool) : State × Bool :=
  let st := r.stream
  let d := s.bandData st f r.band kill
  let n := s.bandHeight st r.band.view r.band.band * s.vwTw st r.band.view * s.vwCb st r.band.view * 32
  let s1 := (s.bandTargets st r.band).foldl (fun x a => x.wrMem a n d.1) s
  let s2 := match s.bandWindow st r.band, f.pic, f.info with
    | some (lo, hi), some h, some i => (s.viewPlanes st r.band.view f.info).foldl (fun (x : State) (g : Grid) =>
        if (g.c = 2 ∧ i.format ≠ 3) ∨ (g.c ≠ 0 ∧ i.format = 4) then x
        else x.noteRead (pfeHolder fe) (some (s.stPart st)) (s.picAddr h i g.c 0 (lo / g.sy)) ((hi / g.sy + 1 - lo / g.sy) * i.stride)) s1
    | some (lo, hi), _, _ => loopUp (hi + 1 - lo) (fun k x => x.noteRead (pfeHolder fe) (some (s.stPart st)) (x.ringLine st (lo + k)) (lineBytes (x.stFormat st) (x.stWidth st))) s1
    | none, _, _ => s1
  let s3 := ((s.bandEngines fe st).foldl (fun (x : State) e => x.bump64 (Reg.pfeBusyNs e) (s.now - r.start)) s2).bump64 (Reg.pfeOutPos fe) (match s.bandImageRows st r.band with | some (lo, hi) => (hi + 1 - lo) * s.vw st r.band.view 12 0 16 | none => 0)
  (if d.2 && !kill then s3.pfeEvent 4 st ((s.bandTargets st r.band).head?.getD 0) else s3, d.2)

/-- The bytes of a band's blocks, position by position. -/
def State.bandBytes (s : State) (st : Nat) (b : Band) : Nat := s.bandHeight st b.view b.band * s.vwTw st b.view * s.vwCb st b.view * 32

/-- The CRC-32C of a band's output blocks, with the parameters of R83 (R121). -/
def State.bandCrc (s : State) (st : Nat) (b : Band) : Nat :=
  match s.bandTargets st b with
  | [] => 0
  | a :: _ => crc32cEnd (s.crcMem (s.bandBytes st b) a 0xFFFFFFFF)

/-- A running band of a frame that has become corrupt or concealed is a hole too (R118): its engines are free, and nothing of it is signalled as data. -/
def State.endHole (s : State) (fe : Nat) (r : BandRun) (f : FeFrame) : State :=
  ((s.bandEngines fe r.stream).foldl (fun (x : State) e => x.bump64 (Reg.pfeBusyNs e) (s.now - r.start)) (s.vacate fe r)).signalBand r.stream f r.band 0 2

/-- The flags of a finished band: concealed, poisoned. -/
def State.bandFlags (s : State) (st : Nat) (f : FeFrame) (poisoned : Bool) : Nat := 4 * b2n (s.frameConcealed st f) + 8 * b2n poisoned

/-! ### The encoder view (R126) -/

/-- Does any view of the stream name its source a Bayer mosaic? -/
def State.stBayer (s : State) (st : Nat) : Bool := (List.range 4).any (fun v => s.vwValid st v && s.vwBayer st v)

/-- The layout of the encoder view: format 0x0 with 16-line block rows, half size for Bayer. -/
def State.encInfo (s : State) (st : Nat) : PicInfo :=
  let k := if s.stBayer st then 2 else 1
  let w := BitVec.ofNat 16 (s.srcW st / k)
  let h := BitVec.ofNat 16 (s.srcH st / k)
  { picType := 4, cra := false, rasl := false, poc := 0, isRef := false, refs := [], keep := [], supported := true, width := w, height := h, codedW := w, codedH := h, needRefs := 0, format := 0, rowHeight := 16 }

/-- BT.709 limited from 8-bit R, G, B: Y, Cb, Cr (the inverse of code 0x3, log entry 19). -/
def toLimited709 (r g b : Int) : Int × Int × Int :=
  let cl := fun (x : Int) => clampInt 0 255 x
  (cl (16 + roundDivInt (1826 * r + 6142 * g + 620 * b) 10000),
   cl (128 + roundDivInt (-1006 * r - 3386 * g + 4392 * b) 10000),
   cl (128 + roundDivInt (4392 * r - 3989 * g - 403 * b) 10000))

/-- Y, Cb, Cr in 8 bits of one pixel of the encoder view. -/
def State.encPixel (s : State) (st : Nat) (f : FeFrame) (x y : Nat) : Int × Int × Int :=
  let w := s.srcW st
  let h := s.srcH st
  let sh : Int := 2 ^ (s.srcBits st none - 8)
  let at_ := fun (c xx yy : Nat) => s.srcSample st f c (min xx (w - 1)) (min yy (h - 1)) / sh
  if s.stBayer st then
    let v := ((List.range 4).find? (fun v => s.vwValid st v && s.vwBayer st v)).getD 0
    let q := fun (c : Nat) => let p := cfaPlace (s.vw st v 1 5 2) c; at_ 0 (2 * x + p.1) (2 * y + p.2)
    toLimited709 (q 0) ((q 1 + q 2) / 2) (q 3)
  else match s.stFormat st with
    | 0x24 => toLimited709 (at_ 0 x y) (at_ 1 x y) (at_ 2 x y)
    | 0x1E => (at_ 0 x y, at_ 1 (x / 2) y, at_ 2 (x / 2) y)
    | 0x1F => (at_ 0 x y, at_ 1 (x / 2) y, at_ 2 (x / 2) y)
    | _ => (at_ 0 x y, 128, 128)

/-- One block row of the encoder view as luma and chroma lines; chroma of each line pair is averaged. -/
def State.encRowData (s : State) (st : Nat) (f : FeFrame) (i : PicInfo) (n : Nat) : RowData :=
  let w := i.width.toNat
  let hh := i.height.toNat
  let yy := fun (k : Nat) => min (16 * n + k) (hh - 1)
  let px := fun (x y : Nat) => s.encPixel st f x y
  let luma := loopUp (16 * w) (fun k a => a + ofSint 8 (px (k % w) (yy (k / w))).1 <<< (8 * k)) 0
  let cw := w / 2 * 2
  let chroma := loopUp (8 * cw) (fun k a =>
    let x := (k % max 1 cw) / 2
    let c := k % 2
    let y0 := yy (2 * (k / max 1 cw))
    let y1 := yy (2 * (k / max 1 cw) + 1)
    let g := fun (p : Int × Int × Int) => if c = 0 then p.2.1 else p.2.2
    let avg := if s.stFormat st = 0x24 ∨ s.stBayer st then
        (g (px (2 * x) y0) + g (px (2 * x + 1) y0) + g (px (2 * x) y1) + g (px (2 * x + 1) y1)) / 4
      else (g (px (2 * x) y0) + g (px (2 * x) y1)) / 2
    a + ofSint 8 avg <<< (8 * (w * (k / max 1 cw) + k % max 1 cw))) 0
  { lost := none, luma := { len := 16 * w, val := luma }, chroma := { len := 8 * w, val := chroma } }

/-- The head of the encoder view's picture descriptor (Table 4.4): no decoding engine; pic_type other intra; concealed once a row is. -/
def State.encHead (s : State) (st : Nat) (f : FeFrame) : Nat :=
  let i := s.encInfo st
  st + (i.format.toNat + i.picType.toNat <<< 4) <<< 8 + i.rowH <<< 24 + i.width.toNat <<< 32 + i.height.toNat <<< 48
    + i.planeH <<< 64 + i.rows <<< 80 + i.stride <<< 96 + (b2n (decide (f.encBad ≠ 0))) <<< 112
    + f.counter <<< 128 + i.chromaOff <<< 160 + f.ts <<< 192

/-- Bytes 32 to 63 of the encoder view's picture descriptor, after its last row. -/
def State.encTail (s : State) (st : Nat) (f : FeFrame) (h : Nat) : Nat :=
  f.encStart + s.now <<< 64 + (s.pictureCrc (s.encInfo st) (s.bufAddr h)) <<< 160 + f.encBad <<< 192

/-- A frame's encoder view as a source picture. -/
def State.encSrc (s : State) (st : Nat) (f : FeFrame) (h : Nat) : SrcPic :=
  { counter := f.counter, ts := f.ts, flags := b2n (decide (f.encBad ≠ 0)), handle := h, base := f.encBase, info := s.encInfo st }

/-- Did a row of the encoder view come from a concealed line (R56, R126)? -/
def State.encRowBad (s : State) (st : Nat) (f : FeFrame) (n : Nat) : Bool :=
  let k := if s.stBayer st then 2 else 1
  (s.csiBad st f).1.any (fun y => decide (16 * k * n ≤ y ∧ y < 16 * k * (n + 1)))

/-- Block rows of the encoder view whose source lines are final are written, with their row status, and signalled; the picture descriptor goes before the first row and is completed after the last (R82, R126). -/
def State.encRows (s : State) (st counter : Nat) : Nat → State
  | 0 => s
  | n + 1 =>
    match (s.feS st).frames.find? (fun f => decide (f.counter = counter)) with
    | none => s
    | some f =>
      match f.enc with
      | none => s
      | some h =>
        let i := s.encInfo st
        let k := if s.stBayer st then 2 else 1
        let need := min (s.srcH st) (16 * k * (f.encRow + 1))
        let g := max 1 (s.strmFld st 14 0 16)
        if i.rows ≤ f.encRow then
          ((s.wrMem (s.bufAddr h) 32 (s.encHead st f)).wrMem (s.bufAddr h + 32) 32 (s.encTail st f h)).updFe st (fun x => { x with
            frames := x.frames.map (fun y => if y.counter = counter then { y with enc := none } else y),
            encDone := x.encDone ++ [s.encSrc st f h] })
        else if f.base + min (s.srcH st) (g * ceilDiv need g) ≤ s.syncVal (s.stStored st) then
          let bad := s.encRowBad st f f.encRow
          let s0 := if f.encRow = 0 then s.wrMem (s.bufAddr h) 32 (s.encHead st f) else s
          let s1 := (s0.wrRow i (s.bufAddr h) f.encRow (s.encRowData st f i f.encRow)).wrByte (s.bufAddr h + 0x40 + f.encRow) (if bad then 3 else 1)
          let s2 := s1.updFeFrame st counter (fun y => { y with encRow := y.encRow + 1, encBad := y.encBad + b2n bad })
          State.encRows (s2.signal (s.fld (Reg.pfeStrmEnc st) 16 16) 1) st counter n
        else s

/-- The encoder views of a stream go on, and older buffers that no session codes from are freed. -/
def State.encProgress (s : State) (st : Nat) : State :=
  let s1 := (s.feS st).frames.foldl (fun x f => x.encRows st f.counter 200) s
  let busy := fun (c : Nat) => s1.enc.sess.any (fun e => match e.2.pic with
    | some p => decide (p.src.counter = c) && decide (bits (s1.rd (Reg.encSessDesc e.1)) 8 7 = st)
    | none => false)
  let l := (s1.feS st).encDone
  let old := l.dropLast.filter (fun e => !(busy e.counter))
  let s2 := old.foldl (fun (x : State) e => x.giveUp (s.stPart st) (pfeHolder (s.stFrontEnd st)) e.handle) s1
  s2.updFe st (fun x => { x with encDone := x.encDone.filter (fun e => !(old.contains e)) })

/-! ### Band ends -/

/-- BAND_DONE (R117 to R121): the running band's data is written; class F signals it, class S waits for the comparison. -/
def State.bandDone (s : State) (fe : Nat) : State :=
  match s.bandRun fe with
  | none => s
  | some r =>
    match s.runFrame r with
    | none => s.setRun fe none
    | some f =>
      if r.done || r.check then s
      else if s.isHole r.stream f then s.endHole fe r f
      else
        let w := s.writeBand fe r f false
        if s.stClassS r.stream then w.1.occupy fe { r with done := true, poisoned := w.2, crc := w.1.bandCrc r.stream r.band }
        else ((w.1.setRun fe none).signalBand r.stream f r.band (s.bandAddr r.stream r.band ((s.vwCores r.stream r.band.view).head?.getD 0)) (s.bandFlags r.stream f w.2)).encProgress r.stream

/-- BAND_LIMIT_EXPIRY (R120, R316): the running band is stopped, its blocks poisoned, and signalled poisoned; a detected fault in class S. -/
def State.bandLimit (s : State) (fe : Nat) : State :=
  match s.bandRun fe with
  | none => s
  | some r =>
    match s.runFrame r with
    | none => s.setRun fe none
    | some f =>
      let st := r.stream
      let lim := clampNat 100 10000 (s.fld Reg.pfeCtrl 0 14)
      let us := if s.stClassS st then min lim (s.fld Reg.safLimits0 16 16) else lim
      if r.done || r.check || decide (s.now < r.start + 1000 * us) then s
      else
        let w := s.writeBand fe r f true
        let s1 := (w.1.vacate fe r).pfeEvent 5 st 0xFFFFFFFFFFFFFFFF
        let s2 := if s.stClassS st then (s1.raise { idx := 14, unit := 0, bit := 7, part := some (s.stPart st), detail := 0x07 }).fault { cause := 0x07, subsys := 5, unit := fe, part := some (s.stPart st), stream := some st } else s1
        if s.isHole st f then s2.signalBand st f r.band 0 10
        else (s2.signalBand st f r.band (s.bandAddr st r.band ((s.vwCores st r.band.view).head?.getD 0)) (s.bandFlags st f true)).encProgress st

/-- The remaining bands of a withdrawn frame signalled poisoned, those without data empty too (R117, R121); one without a credit waits for it (R255). -/
def State.poisonRest (s : State) (st counter : Nat) : List Band → State
  | [] => s
  | b :: t =>
    match (s.feS st).frames.find? (fun f => decide (f.counter = counter)) with
    | none => s
    | some f =>
      let same := fun (y : Band) => decide (y.view = b.view) && decide (y.sample = b.sample) && decide (y.band = b.band)
      let s1 := if s.bandCredit st b.view then s.signalBand st f b 0 (8 + b2n b.empty)
        else s.updFeFrame st counter (fun x => { x with bands := x.bands.map (fun y => if same y then { y with poison := true } else y) })
      State.poisonRest s1 st counter t

/-- BAND_CHECK_COMPARE (R121): a class S band that both front ends have finished; `agree`: the checker's CRC-32C over the blocks is that of the primary, `crc`. -/
def State.bandCompare (s : State) (fe : Nat) (agree : Bool) : State :=
  match s.bandRun fe with
  | none => s
  | some r =>
    match s.runFrame r with
    | none => s.setRun fe none
    | some f =>
      let st := r.stream
      let addr := s.bandAddr st r.band ((s.vwCores st r.band.view).head?.getD 0)
      if !r.done || r.check then s
      else if agree then
        if s.isHole st f then (s.vacate fe r).signalBand st f r.band 0 2
        else ((s.vacate fe r).signalBand st f r.band addr (s.bandFlags st f r.poisoned)).encProgress st
      else
        let s1 := ((s.vacate fe r).bump Reg.pfeDualMismatchCnt 1).pfeEvent 6 st 0xFFFFFFFFFFFFFFFF
        let s2 := s1.withdraw st f.counter 3 5 fe
        let s3 := s2.signalBand st f r.band addr (s.bandFlags st f true)
        let rest := match (s3.feS st).frames.find? (fun x => decide (x.counter = f.counter)) with | some x => x.bands | none => []
        let s4 := s3.poisonRest st f.counter rest
        let win := Tab.read (fun _ => none) s.pfe.pairWin (fe / 2)
        let s5 := { s4 with pfe := { s4.pfe with pairWin := Tab.write (fun _ => none) s4.pfe.pairWin (fe / 2) (some 0) } }
        if win.isSome then
          (s5.pfeEvent 7 st 0xFFFFFFFFFFFFFFFF).fault { cause := 0x07, subsys := 5, unit := fe / 2, part := some (s.stPart st), stream := some st }
        else s5

/-! ### ROI lists and frame start (R122 to R125) -/

/-- A field of a list entry. -/
def entFld (e : Desc64) (byte lo len : Nat) : Nat := bits e.toNat (8 * byte + lo) len

/-- The four regions of an entry, as many as are left. -/
def entRegions (e : Desc64) (n : Nat) : List Region :=
  (List.range (min 4 n)).map (fun k =>
    let g := fun (b lo len : Nat) => entFld e (16 * k + b) lo len
    { x := g 0 0 16, y := g 2 0 16, w := g 4 0 16, h := g 6 0 16, view := g 8 0 8, flags := g 9 0 8, track := g 12 0 32 })

/-- Entries read as lists; the count of lists that are malformed or incomplete. -/
def parseLists : Nat → List Desc64 → List RoiList × Nat
  | 0, _ => ([], 0)
  | _, [] => ([], 0)
  | n + 1, h :: t =>
    if entFld h 0 0 8 ≠ 1 then parseLists n t
    else
      let c := entFld h 2 0 7
      let k := ceilDiv c 4
      if 64 < c ∨ t.length < k then (let r := parseLists n (t.drop k); (r.1, r.2 + 1))
      else
        let regs := ((t.take k).zipIdx).flatMap (fun e => entRegions e.1 (c - 4 * e.2))
        let r := parseLists n (t.drop k)
        ({ counter := entFld h 4 0 32, refresh := entFld h 3 0 1 == 1, regions := regs } :: r.1, r.2)

/-- Every entry of an internal queue taken. -/
def State.drainQueue (s : State) (q : Nat) : Nat → List Desc64 → State × List Desc64
  | 0, acc => (s, acc)
  | n + 1, acc =>
    match s.readHead q with
    | (s1, none) => (s1, acc)
    | (s1, some v) => State.drainQueue (s1.dequeue q) q n (acc ++ [BitVec.ofNat 512 v])

/-- Is counter `a` before `b`, counters wrapping? -/
def before32 (a b : Nat) : Bool := decide (0 < (b + 2 ^ 32 - a) % 2 ^ 32) && decide ((b + 2 ^ 32 - a) % 2 ^ 32 < 2 ^ 31)

/-- The lists that stand at the latch: those kept, then those in the queue (R122, R123). -/
def State.latchLists (s : State) (st : Nat) : State × List RoiList :=
  let q := s.fld (Reg.pfeStrmCfg st) 0 14
  let x := s.feS st
  let r := if s.qType q = 2 then s.drainQueue q (s.qHeld q) [] else (s.updFe st (fun y => { y with fetched := [] }), x.fetched)
  let p := parseLists (r.2.length + 1) r.2
  let s1 := r.1.bump (Reg.pfeStrmRoiStale st) p.2
  (if p.2 = 0 then s1 else s1.pfeEvent 2 st 0xFFFFFFFFFFFFFFFF, x.lists ++ p.1)

/-- The list that a frame uses, and whether it is stale (R123). -/
def State.latch (s : State) (st counter : Nat) : State × Option (RoiList × Bool) :=
  let l := s.latchLists st
  let prev := s.rd (Reg.pfeStrmLastCounter st)
  let old := l.2.filter (fun r => before32 r.counter counter)
  let late := old.filter (fun r => (s.feS st).started && !(before32 prev r.counter))
  let stale := old.filter (fun r => !((s.feS st).started && !(before32 prev r.counter)))
  let keep := l.2.filter (fun r => before32 counter r.counter)
  let s1 := (l.1.bump (Reg.pfeStrmRoiStale st) stale.length).bump (Reg.pfeStrmRoiLate st) late.length
  let s2 := s1.updFe st (fun x => { x with lists := keep })
  match l.2.find? (fun r => decide (r.counter = counter)) with
  | some r => (s2.updFe st (fun x => { x with lastUsed := some r }), some (r, false))
  | none =>
    match (s.feS st).lastUsed with
    | some r => if (counter + 2 ^ 32 - r.counter) % 2 ^ 32 ≤ s.fld (Reg.pfeStrmCfg st) 16 8 then (s2, some (r, true)) else (s2, none)
    | none => (s2, none)

/-- An axis of a window brought within the scale range about its centre and clamped to the picture (R124): start and size. -/
def fitAxis (pos size scaled lim unit : Nat) : Nat × Nat × Bool :=
  let n := if 16 * scaled * unit < size then 16 * scaled * unit else if size * 4 < scaled * unit then ceilDiv (scaled * unit) 4 else size
  if n = size then (pos, size, false)
  else
    let p : Int := (2 * (pos : Int) + size - n) / 2
    let p1 := (clampInt 0 (lim : Int) p).toNat
    let p2 := (clampInt 0 (lim : Int) (p + n)).toNat
    (p1, p2 - p1, true)

/-- One region treated under R124 for a view: the window, and whether it was adjusted. -/
def State.fitRegion (s : State) (st : Nat) (r : Region) : Option (Region × Bool) :=
  let w := s.srcW st
  let h := s.srcH st
  let x2 := min w (r.x + r.w)
  let y2 := min h (r.y + r.h)
  if x2 ≤ r.x ∨ y2 ≤ r.y then none
  else if r.view = 0 ∨ 3 < r.view ∨ !(s.vwValid st r.view) then none
  else
    let bay := s.vwBayer st r.view
    let ev := fun (a b : Nat) => if bay then (a / 2 * 2, ceilDiv b 2 * 2) else (a, b)
    let a := ev r.x (x2 - r.x)
    let b := ev r.y (y2 - r.y)
    let u := if bay then 2 else 1
    let fx := fitAxis a.1 a.2 (s.vwPreW st r.view) w u
    let fy := fitAxis b.1 b.2 (s.vwPreH st r.view) h u
    some ({ r with x := fx.1, w := fx.2.1, y := fy.1, h := fy.2.1 }, fx.2.2 || fy.2.2)

/-- The regions of a list placed in the views' samples in list order: view, sample, window, adjusted; and the number dropped (R124). -/
def State.placeRegions (s : State) (st : Nat) (l : List Region) : List (Nat × Nat × Region × Bool) × Nat :=
  l.foldl (fun (acc : List (Nat × Nat × Region × Bool) × Nat) r =>
    let n := (acc.1.filter (fun e => decide (e.1 = r.view))).length
    match s.fitRegion st r with
    | some (w, adj) => if n < s.vwSamples st r.view then (acc.1 ++ [(r.view, n, w, adj)], acc.2) else (acc.1, acc.2 + 1)
    | none => (acc.1, acc.2 + 1)) ([], 0)

/-- The window of the full view. -/
def State.fullWindow (s : State) (st : Nat) : Region :=
  { x := s.vw st 0 4 0 16, y := s.vw st 0 6 0 16, w := s.vw st 0 8 0 16, h := s.vw st 0 10 0 16, view := 0 }

/-- The bands of one sample. -/
def State.sampleBands (s : State) (st v k : Nat) (win : Option (Region × Bool)) : List Band :=
  (List.range (s.vwBands st v)).map (fun n =>
    match win with
    | some (w, adj) => { view := v, sample := k, band := n, win := w, adjusted := adj }
    | none => { view := v, sample := k, band := n, win := { x := 0, y := 0, w := 0, h := 0, view := v }, empty := true })

/-- The bands of a view: every sample with its window or empty. -/
def State.viewBands (s : State) (st v : Nat) (full dead : Bool) (placed : List (Nat × Nat × Region × Bool)) : List Band :=
  if !(s.vwValid st v) then []
  else (List.range (s.vwSamples st v)).flatMap (fun k =>
    s.sampleBands st v k (if dead then none
      else if v = 0 then (if full then some (s.fullWindow st, false) else none)
      else (placed.find? (fun e => decide (e.1 = v) && decide (e.2.1 = k))).map (fun e => e.2.2)))

/-- Buffers given to bands, in order. -/
def giveHandles : List Band → List Nat → List Band
  | b :: t, h :: r => { b with handle := some h } :: giveHandles t r
  | bs, _ => bs

/-- A buffer of pool `k` that a front end cannot reserve at frame start (Table 5.7): counted, and in class S refused by the pool manager (R74). -/
def State.noOutput (s : State) (st k : Nat) : State :=
  let s1 := (s.bump (Reg.pfeStrmNoBuffer st) 1).pfeEvent 3 st 0xFFFFFFFFFFFFFFFF
  if s.stClassS st then s1.refuseS (s.stPart st) (pfeHolder (s.stFrontEnd st)) k else s1

/-- The output of a view's bands: one pool buffer per band of every sample, reserved at frame start (R116, R18, R74), or the running band counts. -/
def State.viewOutput (s : State) (st v : Nat) (bs : List Band) : State × List Band :=
  if s.vwPool st v then
    if bs.isEmpty then (s, bs)
    else
      let k := s.vw st v 32 0 16
      match s.tryReserve (s.stPart st) (pfeHolder (s.stFrontEnd st)) [(k, bs.length)] with
      | some (s1, hs) => (s1, giveHandles bs hs)
      | none => (s.noOutput st k, bs.map (fun b => { b with empty := true }))
  else
    let c := ((s.feS st).counts[v]?).getD 0
    (s.updFe st (fun x => { x with counts := updAt x.counts v (fun y => y + bs.length) }),
      (bs.zipIdx).map (fun e => { e.1 with count := c + e.2 }))

/-- The views of a frame in turn. -/
def State.allViews (s : State) (st : Nat) (full dead : Bool) (placed : List (Nat × Nat × Region × Bool)) : List Nat → State × List Band
  | [] => (s, [])
  | v :: t =>
    let r := s.viewOutput st v (s.viewBands st v full dead placed)
    let q := State.allViews r.1 st full dead placed t
    (q.1, r.2 ++ q.2)

/-- Is the full view produced (R125)? -/
def State.wantFull (s : State) (st : Nat) (n : FeNotice) (l : Option (RoiList × Bool)) : Bool :=
  let x := s.feS st
  let refresh := s.strmFld st 37 0 8
  (decide (refresh ≠ 0) && (match x.sinceFull with | some k => decide (refresh ≤ k + 1) | none => true))
  || (match l with | some (r, stale) => r.refresh && !stale | none => false)
  || !(s.bitAt (Reg.pfeStrmCfg st) 14)
  || l.isNone || !x.started || n.resumed

/-- The buffer of a frame's encoder view (R126), for S64 to S95 with a session armed. -/
def State.encBuffer (s : State) (st : Nat) : State × Option Nat :=
  if st < 64 || !(s.encArmed st) then (s, none)
  else match s.tryReserve (s.stPart st) (pfeHolder (s.stFrontEnd st)) [(s.fld (Reg.pfeStrmEnc st) 0 16, 1)] with
    | some (s1, h :: _) => (s1, some h)
    | _ => (s.noOutput st (s.fld (Reg.pfeStrmEnc st) 0 16), none)

/-- The oldest notice of a stream taken. -/
def takeNotice (st : Nat) : List FeNotice → Option FeNotice × List FeNotice
  | [] => (none, [])
  | n :: t => if n.stream = st then (some n, t) else let r := takeNotice st t; (r.1, n :: r.2)

/-- The first frame fixes the base of each view's slot-release object (R116). -/
def State.fixBases (s : State) (st : Nat) : State :=
  if (s.feS st).started then s
  else s.updFe st (fun x => { x with bases := (List.range 4).map (fun v => s.syncVal (s.vw st v 36 0 16)) })

/-- Decoded streams of a front end whose unit waits for room among the notices go on (R84). -/
def State.frontWaits (s : State) (st : Nat) : State :=
  (List.range 64).foldl (fun (x : State) d => if x.stFrontEnd d = x.stFrontEnd st ∧ (x.decS d).wait.isSome then x.endWait d else x) s

/-- FRONT_END_FRAME_START (R116, R117, R122 to R126): the oldest frame notice of a stream. -/
def State.frameStart (s : State) (st : Nat) : State :=
  match takeNotice st s.dec.notices with
  | (none, _) => s
  | (some n, rest) =>
    let s0 := ({ s with dec := { s.dec with notices := rest } }).fixBases st
    let roi := s0.bitAt (Reg.pfeStrmCfg st) 14
    let lt := if roi then s0.latch st n.counter else (s0, none)
    let dead := n.skipped || n.flags.testBit 4 || n.flags.testBit 5
    let full := lt.1.wantFull st n lt.2
    let placed := match lt.2 with | some (r, _) => lt.1.placeRegions st r.regions | none => ([], 0)
    let s1 := (lt.1.bump (Reg.pfeStrmRoiDrop st) placed.2).bump (Reg.pfeStrmAdjusted st) (placed.1.filter (fun e => e.2.2.2)).length
    let vs := s1.allViews st full dead placed.1 [0, 1, 2, 3]
    let eb := vs.1.encBuffer st
    let f : FeFrame := { counter := n.counter, ts := n.ts, base := n.base, flags := n.flags, pic := n.handle, info := if n.skipped then none else n.info, roiStale := (match lt.2 with | some (_, b) => b | none => false), bands := vs.2, closed := n.skipped, enc := eb.2, encBase := s.syncVal (s.fld (Reg.pfeStrmEnc st) 16 16), encStart := s.now, released := if n.skipped then s.srcH st else 0 }
    let made := full && !dead && s1.vwValid st 0
    let s2 := eb.1.updFe st (fun x => { x with frames := x.frames ++ [f], started := true, sinceFull := if made then some 0 else x.sinceFull.map (fun k => k + 1) })
    let s3 := (if made then s2.bump (Reg.pfeStrmFull st) 1 else s2).wr (Reg.pfeStrmLastCounter st) n.counter
    let pair := s.stFrontEnd st / 2
    let s4 := if s.stClassS st then
        { s3 with pfe := { s3.pfe with pairWin := Tab.write (fun _ => none) s3.pfe.pairWin pair (match Tab.read (fun _ => none) s3.pfe.pairWin pair with | some k => if k < 100 then some (k + 1) else none | none => none) } }
      else s3
    let s5 := s4.encProgress st
    (s5.settleFrames st (s5.feS st).frames).frontWaits st

/-- The CSI-2 frame that has just closed at ingress, made known to the front end (R119). -/
def State.feClose (s : State) (st : Nat) : State :=
  let x := s.inS st
  let s1 := s.updFe st (fun y => { y with frames := y.frames.map (fun f =>
    if f.counter = x.lastClosed && f.info.isNone then { f with closed := true, bad := x.lastBad, corrupt := x.lastCorrupt } else f) })
  (s1.encProgress st).feSettle st

/-- A submission entry of an ROI list (R122, R347), put with the stream's fetched entries; the list is latched at a frame start. -/
def State.roiEntry (s : State) (st : Nat) (e : Desc64) : State := s.updFe st (fun x => { x with fetched := x.fetched ++ [e] })

end Sys2Proof.Machine
end

