-- ==== Sys2Proof/Machine/Encoder.lean ====
section
/-!
DEFINITION. The snippet encoder: sessions, triggers, rate control, chunks (R99 to R106).
-/
namespace Sys2Proof.Machine

/-- A field of a session descriptor (Table 4.9). -/
def State.sd (s : State) (n byte lo len : Nat) : Nat := bits (s.rdWords (Reg.encSessDesc n) 16) (8 * byte + lo) len

/-- The source stream of a session. -/
def State.sdStream (s : State) (n : Nat) : Nat := s.sd n 1 0 7
/-- The owner partition. -/
def State.sdPart (s : State) (n : Nat) : Nat := s.sd n 2 0 4
/-- Thumbnail mode. -/
def State.sdThumb (s : State) (n : Nat) : Bool := s.sd n 0 0 2 == 1
/-- Lines of a block row: 16 for H.264, 32 for H.265 (R100). -/
def State.sdRowH (s : State) (n : Nat) : Nat := if s.sd n 0 2 2 = 0 then 16 else 32
/-- Output width and height. -/
def State.sdW (s : State) (n : Nat) : Nat := s.sd n 12 0 16
/-- Output height. -/
def State.sdH (s : State) (n : Nat) : Nat := s.sd n 14 0 16
/-- Block rows of a picture. -/
def State.sdRows (s : State) (n : Nat) : Nat := ceilDiv (s.sdH n) (s.sdRowH n)
/-- The worst-case size of a row (R102). -/
def State.sdWorst (s : State) (n : Nat) : Nat := s.sdW n * s.sdRowH n * 3 / 2 + 256

/-- The state of a session: 0 idle, 1 armed, 2 delivering, 3 stopping. -/
def State.sessState (s : State) (n : Nat) : Nat := s.fld (Reg.encSessState n) 0 3

/-- What the encoder keeps of a session. -/
def State.sess (s : State) (n : Nat) : EncSess := Tab.read (fun _ => {}) s.enc.sess n

/-- What the encoder keeps of a session, changed. -/
def State.updSess (s : State) (n : Nat) (f : EncSess → EncSess) : State :=
  { s with enc := { s.enc with sess := Tab.write (fun _ => {}) s.enc.sess n (f (s.sess n)) } }

/-- ENC_STATUS: sessions armed and delivering. -/
def State.showEnc (s : State) : State :=
  let count := fun (v : Nat) => loopUp 16 (fun n k => if s.sessState n = v then k + 1 else k) 0
  s.wr Reg.encStatus (count 1 + count 2 <<< 5)

/-- The state of a session set. -/
def State.setSess (s : State) (n v : Nat) : State := (s.setFld (Reg.encSessState n) 0 3 v).showEnc

/-- An event of the encoder (Table 19.1: unit session, detail stream). -/
def State.encEvent (s : State) (b n : Nat) : State :=
  s.raise { idx := 4, unit := n, bit := b, part := some (s.sdPart n), detail := s.sdStream n }

/-- ENC_SESS_DESC_WRITE (R106, Table 4.9): one word by a function; ignored while the session is not idle; only the PF changes the owner. -/
def State.encDescWrite (s : State) (f n word v : Nat) : State :=
  if s.sessState n ≠ 0 then s.encEvent 0 n
  else
    let a := Reg.encSessDesc n + 4 * word
    if f ≠ 0 ∧ word = 0 then s.wr a (putBits v 16 4 (s.fld a 16 4)) else s.wr a v

/-- The size of a stream's source pictures: decoded, or the encoder view, half as large for a Bayer source (R99, R126). -/
def State.srcSize (s : State) (st : Nat) : Nat × Nat :=
  if st < 64 then (s.stWidth st, s.stHeight st) else ((s.encInfo st).width.toNat, (s.encInfo st).height.toNat)

/-- The crop window of a session in a source picture: x, y, width, height; the whole picture for width 0. -/
def State.sdCrop (s : State) (n : Nat) (sw sh : Nat) : Nat × Nat × Nat × Nat :=
  if s.sd n 8 0 16 = 0 then (0, 0, sw, sh) else (s.sd n 4 0 16, s.sd n 6 0 16, s.sd n 8 0 16, s.sd n 10 0 16)

/-- Are the fields of a descriptor valid (Tables 4.9, 4.10, R99, R100, R102)? -/
def State.sdValid (s : State) (n : Nat) : Bool :=
  let st := s.sdStream n
  let rot := s.sd n 0 4 2
  let sw := (s.srcSize st).1
  let sh := (s.srcSize st).2
  let whole := decide (s.sd n 8 0 16 = 0)
  let cw := if whole then sw else s.sd n 8 0 16
  let ch := if whole then sh else s.sd n 10 0 16
  let ow := if rot % 2 = 1 then s.sdH n else s.sdW n
  let oh := if rot % 2 = 1 then s.sdW n else s.sdH n
  let k := s.sd n 32 0 16
  decide (s.sd n 0 0 2 ≤ 1) && decide (s.sd n 0 2 2 ≤ 1) && decide (st < 96) && s.stValid st
  && decide (1 ≤ s.sd n 3 0 8) && decide (whole ∨ (s.sd n 4 0 16 + cw ≤ sw ∧ s.sd n 6 0 16 + ch ≤ sh))
  && decide (s.sdW n % 16 = 0 ∧ 64 ≤ s.sdW n ∧ s.sdW n ≤ 1920 ∧ s.sdH n % 16 = 0 ∧ 64 ≤ s.sdH n ∧ s.sdH n ≤ 1920 ∧ s.sdW n * s.sdH n ≤ 2088960)
  && decide (ow ≤ cw ∧ cw ≤ 8 * ow ∧ oh ≤ ch ∧ ch ≤ 8 * oh)
  && decide (64 ≤ s.sd n 16 0 32 ∧ s.sd n 16 0 32 ≤ 20000)
  && decide (s.sd n 20 0 8 ≤ 51 ∧ s.sd n 21 0 8 ≤ 51 ∧ s.sd n 22 0 8 ≤ 51 ∧ s.sd n 21 0 8 ≤ s.sd n 22 0 8)
  && decide (s.sd n 23 0 8 ≤ 8 ∧ 1 ≤ s.sd n 24 0 16 ∧ s.sd n 24 0 16 ≤ 1024 ∧ s.sd n 26 0 16 ≤ 10000 ∧ s.sd n 28 0 16 ≤ 30000)
  && decide (s.qType (s.sd n 30 0 14) = 1 ∧ s.qOwner (s.sd n 30 0 14) = s.sdPart n)
  && s.pValid k && decide (s.pOwner k = s.sdPart n) && decide (2 * s.sdWorst n * s.sdRows n ≤ s.pBufSize k)

/-- The holder name of the encoder (R260). -/
def encHolder : Nat := holderName 4 0

/-- START refused: ENC_SESS_STATE.reject and ENC_ERR.session_reject. -/
def State.encReject (s : State) (n : Nat) : State := (s.setFld (Reg.encSessState n) 3 1 1).encEvent 1 n

/-! ### Chunks (R104, Table 10.6) -/

/-- The concealment flags of a source picture as they stand: `old` once nothing else is known of the picture (R104). -/
def State.srcFlags (s : State) (st counter old : Nat) : Nat :=
  if st < 64 then
    let dirty := match (s.decS st).pic with | some p => decide (p.counter = counter) && !p.bad.isEmpty | none => false
    (match (s.decS st).last with | some p => if p.counter = counter then p.flags else old | none => old) ||| b2n dirty
  else match (s.feS st).frames.find? (fun f => decide (f.counter = counter) && f.enc.isSome) with
    | some f => b2n (decide (f.encBad ≠ 0))
    | none => match (s.feS st).encDone.find? (fun p => decide (p.counter = counter)) with
      | some p => p.flags
      | none => old

/-- One SNIPPET_CHUNK of a coded row: bytes `off` to `off + k` of it, with the concealment flags of its source picture. -/
def State.encChunk (s : State) (n : Nat) (r : CodedRow) (off k flags offset : Nat) : State :=
  let x := s.sess n
  let fl := s.srcFlags (s.sdStream n) r.counter r.flags
  let v := n + flags <<< 8 + k <<< 16 + (x.snippet % 2 ^ 32) <<< 32 + (offset % 2 ^ 32) <<< 64 + r.data.le off k <<< 96
  let b : Blob := { len := 12 + k, val := v }
  s.handRec 14 { typ := 0x08, stream := some (s.sdStream n), part := s.sdPart n, classS := s.classS (s.sdPart n), concealed := fl.testBit 0, concealedRef := fl.testBit 1, unframed := true, counter := r.counter, ts := r.ts, ringOf := some (s.sd n 30 0 14), body := b }

/-- The chunks of a row from byte `off` on; `first`, `last` and `cut` mark the snippet's first chunk, its last and a truncation. -/
def State.encChunks (s : State) (n : Nat) (r : CodedRow) (off offset : Nat) (first last cut thumb : Bool) : Nat → State
  | 0 => s
  | fuel + 1 =>
    let k := min 868 (r.data.len - off)
    let fin := decide (r.data.len ≤ off + k)
    let flags := b2n (first && decide (off = 0)) + 2 * b2n (last && fin) + 4 * b2n (cut && fin) + 8 * b2n r.idr + 16 * b2n thumb
    let s1 := s.encChunk n r off k flags (offset + off)
    if fin then s1 else State.encChunks s1 n r (off + k) offset first last cut thumb fuel

/-- A snippet has ended: it is counted, and the session is armed again. -/
def State.snippetEnd (s : State) (n : Nat) : State :=
  ((s.bump (Reg.encSessSnippets n) 1).updSess n (fun x => { x with endTb := none, needIdr := false, offset := 0 })).setSess n 1

/-- Does the window of a delivery end with a picture of timestamp `ts`: would the next coded picture lie beyond it (log entry 20)? -/
def State.windowEnds (s : State) (n ts : Nat) : Bool :=
  match (s.sess n).endTb with
  | some e => decide (e < ts + s.sd n 3 0 8 * s.stPeriod (s.sdStream n))
  | none => false

/-- A coded row delivered: its chunks handed to the collector, its space freed (R102, R104). -/
def State.deliverRow (s : State) (n : Nat) (r : CodedRow) (thumb : Bool) : State :=
  let x := s.sess n
  let mx := s.sd n 36 0 32
  let total := x.offset + r.data.len
  let cut := decide (mx ≠ 0 ∧ mx ≤ total)
  let lastRow := decide (r.row + 1 = s.sdRows n)
  let last := cut || (lastRow && (thumb || s.windowEnds n r.ts))
  let s1 := s.encChunks n r 0 x.offset (decide (x.offset = 0)) last cut thumb (r.data.len / 868 + 1)
  let s2 := s1.updSess n (fun y => { y with offset := total, bytes := y.bytes + r.data.len, store := y.store.filter (fun c => !(decide (c.pic = r.pic) && decide (c.row = r.row))) })
  let s3 := s2.wr (Reg.encSessBytes n) (min (2 ^ 32 - 1) ((s2.sess n).bytes / 1024))
  if last then s3.snippetEnd n else s3

/-- Rows of the session buffer that the delivery window covers, delivered in order; a snippet begins with an IDR picture (R100). -/
def State.deliverStored (s : State) (n : Nat) : List CodedRow → State
  | [] => s
  | r :: t =>
    let x := s.sess n
    match x.endTb with
    | none => s
    | some e =>
      if x.needIdr && r.idr && decide (r.row = 0 ∧ r.ts ≤ e) then
        State.deliverStored ((s.updSess n (fun y => { y with needIdr := false, fromTb := r.ts })).deliverRow n r false) n t
      else if !x.needIdr && decide (x.fromTb ≤ r.ts ∧ r.ts ≤ e) then State.deliverStored (s.deliverRow n r false) n t else State.deliverStored s n t

/-! ### Triggers and session commands (R102, R104) -/

/-- The timestamp from which a trigger delivers: the newest IDR picture at or before the trigger TB minus pre_ms, else the oldest held; none with no IDR picture in the ring. -/
def fromIdr (store : List CodedRow) (limit : Nat) : Option Nat :=
  let idrs := store.filter (fun r => r.idr && decide (r.row = 0))
  match (idrs.filter (fun r => decide (r.ts ≤ limit))).getLast? with
  | some r => some r.ts
  | none => idrs.head?.map (fun r => r.ts)

/-- A trigger (R104): a thumbnail is taken of the next source picture; an armed event session starts to deliver, and where its ring holds no IDR picture the next source picture is one (R100); a delivering one restarts its post window. -/
def State.encTrigger (s : State) (n : Nat) : State :=
  let st := s.sessState n
  if st ≠ 1 ∧ st ≠ 2 then s
  else if s.sdThumb n then s.updSess n (fun x => { x with thumbs := x.thumbs + 1 })
  else
    let e := s.now + 1000000 * s.sd n 28 0 16
    if st = 2 then s.updSess n (fun x => { x with endTb := some e })
    else
      let frm := fromIdr (s.sess n).store (s.now - 1000000 * s.sd n 26 0 16)
      let s1 := (s.updSess n (fun x => { x with fromTb := frm.getD 0, needIdr := frm.isNone, endTb := some e, snippet := x.snippet + 1, offset := 0 })).setSess n 2
      s1.deliverStored n (s1.sess n).store

/-- START (R102, R106): an idle session is checked, reserves its session buffer and is armed; on an armed one it is a trigger (R104). -/
def State.encStart (s : State) (n : Nat) : State :=
  let st := s.sessState n
  if st = 1 ∨ st = 2 then s.encTrigger n
  else if st = 3 then s
  else if !(s.sdValid n) then s.encReject n
  else match s.tryReserve (s.sdPart n) encHolder [(s.sd n 32 0 16, 1)] with
    | some (s1, h :: _) =>
      ((s1.setFld (Reg.encSessState n) 3 2 0).updSess n (fun x => { snippet := x.snippet, bytes := x.bytes, handle := some h, qp := s.sd n 20 0 8 })).setSess n 1
    | _ => s.encReject n

/-- A session goes idle: its buffer returns. -/
def State.encIdle (s : State) (n : Nat) : State :=
  let s1 := match (s.sess n).handle with
    | some h => s.giveUp (s.sdPart n) encHolder h
    | none => s
  (s1.updSess n (fun x => { snippet := x.snippet, bytes := x.bytes })).setSess n 0

/-- STOP (R102): a row in progress ends first. -/
def State.encStop (s : State) (n : Nat) : State :=
  if s.sessState n = 0 then s
  else match (s.sess n).pic with
    | some p => if p.started then s.setSess n 3 else s.encIdle n
    | none => s.encIdle n

/-- SNIPPET_TRIGGER_EVENT (R104): an EVENT record of a stream with an event type. -/
def State.encEventTrigger (s : State) (st typ : Nat) : State :=
  loopUp 16 (fun n x =>
    if x.sdStream n = st ∧ x.sd n 34 0 8 = typ ∧ typ ≠ 0 then x.encTrigger n else x) s

/-- POST_WINDOW_EXPIRY (R104): the post window has passed; a picture of the window still in progress ends first. -/
def State.postWindow (s : State) (n : Nat) : State :=
  let x := s.sess n
  match x.endTb with
  | none => s
  | some e =>
    if s.now ≤ e ∨ s.sessState n ≠ 2 then s
    else match x.pic with
      | some p => if p.src.ts ≤ e then s else s.snippetEnd n
      | none => s.snippetEnd n

/-- SOURCE_LOST (R106): the source stream is unsupported or disabled; the session stops. -/
def State.sourceLost (s : State) (n : Nat) : State :=
  let st := s.sdStream n
  let lost := decide (s.stRun st = 0) || (decide (st < 64) && decide (s.decState st = 3))
  if s.sessState n = 0 ∨ !lost then s
  else ((s.encIdle n).setFld (Reg.encSessState n) 4 1 1).encEvent 2 n

/-! ### Pictures and rows (R99, R101 to R103) -/

/-- The newest picture of a session's source: the decoder's, or the front end's encoder view (R99). -/
def State.encSource (s : State) (st : Nat) : Option SrcPic :=
  if st < 64 then (s.decS st).last
  else match (s.feS st).frames.reverse.findSome? (fun f => f.enc.map (s.encSrc st f)) with
    | some p => some p
    | none => (s.feS st).encDone.getLast?

/-- ENC_SOURCE_PICTURE (R99, R101): a new source picture of a session; skipped and counted while the previous one is coded; one in fps_div is coded; a thumbnail session codes one per trigger. -/
def State.encSourcePicture (s : State) (n : Nat) : State :=
  let st := s.sessState n
  let x := s.sess n
  if (st ≠ 1 ∧ st ≠ 2) ∨ !(s.bitAt Reg.encCtrl 0) then s
  else match s.encSource (s.sdStream n) with
    | none => s
    | some src =>
      let thumb := s.sdThumb n
      if thumb && decide (x.thumbs = 0) then s
      else if x.pic.isSome then s.bump (Reg.encSessOverrun n) 1
      else if !thumb && decide (x.srcCount % max 1 (s.sd n 3 0 8) ≠ 0) then s.updSess n (fun y => { y with srcCount := y.srcCount + 1 })
      else
        let idr := thumb || decide (x.picNum = 0) || decide (s.sd n 24 0 16 ≤ x.sinceIdr) || x.needIdr
        let p : EncPic := { src := src, idr := idr, thumb := thumb }
        s.updSess n (fun y => { y with pic := some p, srcCount := y.srcCount + 1, sinceIdr := if idr then 1 else y.sinceIdr + 1, thumbs := y.thumbs - 1, snippet := if thumb then y.snippet + 1 else y.snippet, offset := if thumb then 0 else y.offset })

/-- Bytes of the session buffer in use. -/
def storeBytes (l : List CodedRow) : Nat := l.foldl (fun n r => n + r.data.len) 0

/-- The session buffer without its oldest group of pictures: the rows before the second IDR picture. -/
def dropGop (l : List CodedRow) : List CodedRow :=
  match l with
  | [] => []
  | r :: t => t.dropWhile (fun x => !(x.idr && decide (x.row = 0) && decide (x.pic ≠ r.pic)))

/-- Groups discarded until the worst case fits (R102). -/
def makeRoom (cap worst : Nat) : Nat → List CodedRow → List CodedRow
  | 0, l => l
  | n + 1, l => if storeBytes l + worst ≤ cap then l else makeRoom cap worst n (dropGop l)

/-- The source lines that row `p.row` of a session's picture needs, as a line count (R99): with a rotation by a quarter or half turn, the whole crop window. -/
def State.encNeed (s : State) (n : Nat) (p : EncPic) : Nat :=
  let sh := p.src.info.height.toNat
  let c := s.sdCrop n p.src.info.width.toNat sh
  if s.sd n 0 4 2 = 0 then min sh (c.2.1 + ceilDiv ((p.row + 1) * s.sdRowH n * c.2.2.2) (max 1 (s.sdH n)) + 2) else min sh (c.2.1 + c.2.2.2)

/-- Does the sync object of the source's rows show the lines that the next row needs final (R16, R99): the row sync object of a decoded picture, as R85 counts it, or enc_sync of an encoder view? -/
def State.encSourceReady (s : State) (n : Nat) (p : EncPic) : Bool :=
  let st := s.sdStream n
  let i := p.src.info
  let k := ceilDiv (s.encNeed n p) i.rowH
  if st < 64 then decide (p.src.base + min i.rows (k + 1) ≤ s.syncVal (s.rowSync st))
  else decide (p.src.base + min i.rows k ≤ s.syncVal (s.fld (Reg.pfeStrmEnc st) 16 16))

/-- An 8-bit sample of a source picture: the upper 8 bits of a 10-bit one (R99). -/
def State.encTap (s : State) (p : SrcPic) (c x y : Nat) : BitVec 8 :=
  BitVec.ofNat 8 (if p.info.format = 1 then s.picSample p.handle p.info c x y / 4 else s.picSample p.handle p.info c x y)

/-- Subsampling of the chroma of a picture format (Table 4.3). -/
def chromaSub (format : Nat) : Nat × Nat := if format ≤ 1 then (2, 2) else if format = 2 then (2, 1) else (1, 1)

/-- The sample of plane `c` at (x, y) of a session's output: cropped, scaled with 4 taps on each axis by a filter whose coefficients the manual does not give, rotated (R99; log entry 96). -/
def State.encSample (s : State) (n : Nat) (p : SrcPic) (c x y : Nat) : BitVec 8 :=
  let half := if c = 0 then 1 else 2
  let sub := if c = 0 then (1, 1) else chromaSub p.info.format.toNat
  let w := p.info.width.toNat
  let h := p.info.height.toNat
  let win := s.sdCrop n w h
  let rot := s.sd n 0 4 2
  let ow := (if rot % 2 = 1 then s.sdH n else s.sdW n) / half
  let oh := (if rot % 2 = 1 then s.sdW n else s.sdH n) / half
  let o := unturn rot (s.sdW n / half) (s.sdH n / half) x y
  let cw := win.2.2.1 / sub.1
  let ch := win.2.2.2 / sub.2
  let xu := axisU (win.1 / sub.1) cw ow o.1 1 false
  let yu := axisU (win.2.1 / sub.2) ch oh o.2 1 true
  let xp := tapPos xu.1 xu.2
  let yp := tapPos yu.1 yu.2
  let g : Grid := { c := c, w := w / sub.1, h := h / sub.2 }
  Config.encFilter (cw, ow, xp.2) (ch, oh, yp.2) ((List.range 16).map (fun k =>
    let q := g.at_ (xp.1 - 1 + (k % 4 : Nat)) (yp.1 - 1 + (k / 4 : Nat))
    s.encTap p c q.1 q.2))

/-- The samples of row `r` of a session's picture: its luma lines, then its Cb and Cr interleaved (R99). -/
def State.encLines (s : State) (n : Nat) (p : SrcPic) (r : Nat) : Blob :=
  let w := s.sdW n
  let hh := min (s.sdRowH n) (s.sdH n - r * s.sdRowH n)
  let y0 := r * s.sdRowH n
  { len := w * hh + w * (hh / 2),
    val := loopUp (w * hh) (fun k a => a + (s.encSample n p 0 (k % w) (y0 + k / w)).toNat <<< (8 * k)) 0
      + loopUp (w * (hh / 2)) (fun k a => a + (s.encSample n p (1 + k % 2) (k % w / 2) (y0 / 2 + k / w)).toNat <<< (8 * (w * hh + k))) 0 }

/-- The session buffer once room is made for a row: an event session discards its oldest groups of pictures that hold no data still to be delivered (R102). -/
def State.encRoom (s : State) (n : Nat) : List CodedRow :=
  let l := (s.sess n).store
  if s.sdThumb n then l else makeRoom (s.pBufSize (s.sd n 32 0 16)) (s.sdWorst n) l.length l

/-- Groups discarded while the next one begins `pre` ns or more before the newest coded picture: the ring holds pre_ms of output (R104). -/
def trimRing (pre : Nat) : Nat → List CodedRow → List CodedRow
  | 0, l => l
  | n + 1, l =>
    match dropGop l, l.getLast? with
    | r :: t, some z => if r.ts + pre ≤ z.ts then trimRing pre n (r :: t) else l
    | _, _ => l

/-- The bytes of a coded row written to the session buffer from place `at_` on, round its end (R102; log entry 96). -/
def State.wrRing (s : State) (base size at_ : Nat) (data : Blob) : State :=
  let k := min data.len (size - at_)
  (s.wrMem (base + at_) k (data.le 0 k)).wrMem base (data.len - k) (data.le k (data.len - k))

/-- A coded row put into the session buffer: its bytes in memory, the row in the list of those held; the ring of an armed session is trimmed. -/
def State.encPut (s : State) (n : Nat) (r : CodedRow) : State :=
  let x := s.sess n
  let size := max 1 (s.pBufSize (s.sd n 32 0 16))
  let s1 := match x.handle with
    | some h => s.wrRing (s.bufAddr h) size x.place r.data
    | none => s
  let l := x.store ++ [r]
  let l1 := if s.sessState n = 1 && !(s.sdThumb n) then trimRing (1000000 * s.sd n 26 0 16) l.length l else l
  s1.updSess n (fun y => { y with store := l1, place := (y.place + r.data.len) % size })

/-- Has a session a row ready to be coded: a picture whose source lines are final, and room for the row's worst case (R99, R102)? -/
def State.encReady (s : State) (n : Nat) : Bool :=
  match (s.sess n).pic with
  | none => false
  | some p => decide (s.sessState n ≠ 0) && s.encSourceReady n p && decide (storeBytes (s.encRoom n) + s.sdWorst n ≤ s.pBufSize (s.sd n 32 0 16))

/-- Is a row of some session being coded? -/
def State.encBusy (s : State) : Bool := s.enc.sess.any (fun e => e.2.pic.elim false (fun p => p.started))

/-- ENC_ROW_START (R99, R101, R102): the next row of a session's picture, when no row is being coded and the session is the next ready one in round robin after the session coded last. -/
def State.encRowStart (s : State) (n : Nat) : State :=
  if s.encBusy || decide (rrPick (List.range 16) (some s.enc.rr) s.encReady ≠ some n) then s
  else
    let room := s.encRoom n
    let lines := match (s.sess n).pic with | some p => s.encLines n p.src p.row | none => { len := 0, val := 0 }
    ({ s with enc := { s.enc with rr := n } }).updSess n (fun y => { y with store := room, lines := lines, pic := y.pic.map (fun (p : EncPic) => { p with started := true }) })

/-- B, the bits of a picture, in 1/2,000,000 bit: bitrate × fps_div × period, times idr_factor, less half the carry (R103). -/
def State.encBudget (s : State) (n : Nat) (idr : Bool) (carry : Int) : Int :=
  let f := s.sd n 23 0 8
  let b : Int := 2 * (s.sd n 16 0 32 * s.sd n 3 0 8 * s.stPeriod (s.sdStream n) * (if idr then (if f = 0 then 4 else f) else 1) : Nat)
  b - carry / 2

/-- Σ of the first `k` entries. -/
def sumTake (l : List Nat) (k : Nat) : Nat := (l.take k).foldl (fun a b => a + b) 0

/-- share(r) as a fraction: of the previous picture of the type, or (r + 1) / R (R103). -/
def shareOf (prev : List Nat) (r rows : Nat) : Nat × Nat :=
  let t := sumTake prev prev.length
  if t = 0 then (r + 1, rows) else (sumTake prev (r + 1), t)

/-- The QP step after row `r` (R103): err = (used − plan) × R / B, all in 1/2,000,000 bit. -/
def qpStep (b : Int) (used : Nat) (share : Nat × Nat) (rows : Nat) : Int :=
  let u : Int := 2000000 * used
  let num := (u * share.2 - b * share.1) * rows
  let den := b * share.2
  if den ≤ num then 2 else if den ≤ 4 * num then 1 else if num ≤ -den then -2 else if 4 * num ≤ -den then -1 else 0

/-- The end of a coded picture: carry, shares, numbers (R103), and its rows' flags as its source picture has them (R104). -/
def State.encPicEnd (s : State) (n : Nat) (p : EncPic) (b : Int) : State :=
  s.updSess n (fun x => { x with
    store := x.store.map (fun r => if r.pic = x.picNum then { r with flags := s.srcFlags (s.sdStream n) r.counter r.flags } else r),
    pic := none, picNum := x.picNum + 1,
    carry := clampInt (-b) b (2000000 * (p.used : Int) - b),
    rowsI := if p.idr then p.rowBits else x.rowsI, rowsP := if p.idr then x.rowsP else p.rowBits })

/-- ENC_SLICE_CODED (R100, R103, R104): the row in progress is coded as `data`, past 2 × B as skipped (P) or at qp_max (IDR); rate control steps; the row enters the session buffer and is delivered as its session is. -/
def State.encSliceCoded (s : State) (n : Nat) (data : Blob) : State :=
  let x := s.sess n
  match x.pic with
  | none => s
  | some p =>
    if !p.started then s
    else if s.sessState n = 3 then s.encIdle n
    else
      let rows := s.sdRows n
      let b := s.encBudget n p.idr x.carry
      let used := p.used + 8 * data.len
      let tooBig := decide (2 * b < 2000000 * (used : Int))
      let q0 := clampInt (s.sd n 21 0 8) (s.sd n 22 0 8) ((x.qp : Int) + qpStep b used (shareOf (if p.idr then x.rowsI else x.rowsP) p.row rows) rows)
      let qp := if tooBig && p.idr && decide (p.row + 1 < rows) then s.sd n 22 0 8 else q0.toNat
      let p1 : EncPic := { p with row := p.row + 1, used := used, rowBits := p.rowBits ++ [8 * data.len], started := false, skipMode := tooBig }
      let r : CodedRow := { data := data, pic := x.picNum, ts := p.src.ts, idr := p.idr, row := p.row, counter := p.src.counter, flags := p.src.flags, skipped := p.skipMode && !p.idr }
      let s1 := (s.encPut n r).updSess n (fun y => { y with qp := qp, pic := some p1, lines := { len := 0, val := 0 } })
      let s2 := (s1.setFld (Reg.encSessState n) 8 8 x.qp).bump64 Reg.encPixCnt (s.sdW n * min (s.sdRowH n) (s.sdH n - p.row * s.sdRowH n))
      let s3 := if p1.row = rows then s2.encPicEnd n p1 b else s2
      if p.thumb then s3.deliverRow n r true
      else if s.sessState n = 2 then s3.deliverStored n [r]
      else s3

end Sys2Proof.Machine
end

