-- ==== Sys2Proof/Machine/Arrays.lean ====
section
/-!
DEFINITION. The matrix arrays and drain units: what the beats of a tile leave in the accumulator slices (R129 to R141, R170 to R173, R182 to R187).
-/
namespace Sys2Proof.Machine

/-- The k-th enabled array of a mask, in ascending index (R152). -/
def nthArray (mask : Nat) : Nat → Nat → Nat
  | 0, _ => 0
  | fuel + 1, k =>
    let a := 4 - (fuel + 1)
    if mask.testBit a then (if k = 0 then a else nthArray mask fuel (k - 1)) else nthArray mask fuel k

/-- The array that computes tile row `r`: rows 32k to 32k + 31 of each M step go to the k-th array (R152). -/
def Tile.arrayOf (t : Tile) (r : Nat) : Nat := nthArray t.arrays 4 (r % (32 * max 1 t.n) / 32)

/-- The accumulator row of tile row `r` within its array's claim: M steps follow each other; a complex tile stands at its segment's place in the spectral group (R139, R194). -/
def Tile.accRow (t : Tile) (r : Nat) : Nat :=
  let st := 32 * max 1 t.n
  let first := if t.kind = 1 then t.mFirst / st else 0
  32 * (first + r / st) + r % 32

/-- Does the tile claim both halves of slice `a`? -/
def Tile.wholeSlice (t : Tile) (a : Nat) : Bool := bits t.claim (2 * a) 2 == 3

/-- First accumulator entry of the tile's claim in slice `a`. -/
def Tile.accFirst (t : Tile) (a : Nat) : Nat := if bits t.claim (2 * a) 2 = 2 then 32768 else 0

/-- Entries of a region: the real region fills the first half of a complex tile's claim (R139). -/
def Tile.regionSize (t : Tile) (a : Nat) : Nat := if t.wholeSlice a then 32768 else 16384

/-- The accumulator entry of row `r`, column `n`, region 0 real or 1 imaginary. -/
def Tile.accEntry (t : Tile) (r n region : Nat) : Nat :=
  let a := t.arrayOf r
  t.accFirst a + region * t.regionSize a + 32 * t.accRow r + n

/-- The device address of an entry of slice `a` of core `c`. -/
def accAddr (c a e : Nat) : Nat := 0x1020000000 + 0x1000000 * c + 0x40000 * a + 4 * e

/-! ### The feeder (R182, R183, R187, R193) -/

/-- The address of the input block of sample `smp` at a position that may lie outside the tensor; none where a zero block is fed: outside, in a masked hole (R183, R214). -/
def Tile.inAt (t : Tile) (c smp : Nat) (r x : Int) (cb : Nat) : Option Nat :=
  if t.hole smp || decide (r < 0) || decide (x < 0) || decide ((t.inH : Int) ≤ r) || decide ((t.inW : Int) ≤ x) || decide (t.inCb ≤ cb) then none
  else some (t.inAddr c smp r.toNat x.toNat cb)

/-- Rows of one segment without its padding. -/
def Tile.rowsOfSeg (t : Tile) : Nat := max 1 (if t.facts.segRows = 0 then t.segLen else t.facts.segRows)

/-- The input position and block of MATMUL_RT's operand A for row `q` of head `j`, K block `kb` (R187): a tensor that holds the heads side by side gives each its own blocks; one that holds the score rows of the first product gives each head its own positions (log entry 22). -/
def Tile.headAt (t : Tile) (j q kb : Nat) : Nat × Nat :=
  if max 1 t.aux0 * t.cbK ≤ t.inCb then (q, j * t.cbK + kb) else (j * t.rowsOfSeg + q, kb)

/-- The address of the block that the feeder gives logical row `m`, segment `seg`, for K block `kb` of plane `set`; none where it supplies zeros. -/
def Tile.feedAt (t : Tile) (c m seg set kb : Nat) : Option Nat :=
  let sp := t.place m
  if t.kind = 1 then
    let bin := t.mFirst / (32 * max 1 t.n) + seg
    if t.inCb ≤ kb || t.holeRow m then none
    else some (scratchAddr c 0 + t.inOff + 32 * (t.inCb * ((set * t.inH + bin % max 1 t.inH) * t.inW + m % t.rowsOfSeg) + kb))
  else if t.op = 0x03 then
    let g := t.mFirst / max 1 t.segLen + seg
    let e := t.headAt (g % max 1 t.aux0) (m % t.rowsOfSeg) kb
    t.inAt c (g / max 1 t.aux0) (e.1 / max 1 t.inW : Nat) (e.1 % max 1 t.inW : Nat) e.2
  else if t.op = 0x02 then
    t.inAt c sp.1 (sp.2 / max 1 t.inW : Nat) (sp.2 % max 1 t.inW : Nat) kb
  else
    let w := max 1 t.outW
    let cb := max 1 t.cbK
    let tap := kb / cb
    let y : Int := ((sp.2 / w * t.sh + tap / t.kw * t.dh : Nat) : Int) - t.padT
    let x : Int := ((sp.2 % w * t.sw + tap % t.kw * t.dw : Nat) : Int) - t.padL
    t.inAt c sp.1 y x (t.groupN * cb + kb % cb)

/-- The block that the feeder gives. -/
def State.feed (s : State) (c : Nat) (t : Tile) (m seg set kb : Nat) : Seen :=
  match t.feedAt c m seg set kb with
  | none => {}
  | some a => s.seeBlk (s.classS t.part) a

/-! ### One output entry (R130, R135, R171) -/

/-- The cube sum of one block, one column and one pass: 16 exact products (R130, R170). -/
def State.cubeSum (s : State) (t : Tile) (base seg set q n kb p : Nat) (v : Seen) : Int :=
  let zp : Int := (bits (s.wParam t base seg set q n) 16 16 : Nat)
  if blkZero v.blk then 0
  else loopUp 16 (fun i (acc : Int) =>
    let d : Int := (s.wCode t base seg set (16 * kb + i) n : Nat) - zp
    acc + blkMant v.blk i * digit t.fmt d p) 0

/-- The sums of one block in every pass, added into the group partial; the first is taken without rounding (step 2 of R171). -/
def State.drainBlock (s : State) (t : Tile) (base seg set q n kb : Nat) (v : Seen) (g : Option Nat) : Option Nat :=
  loopUp (passes t.fmt) (fun p (acc : Option Nat) =>
    let sum := s.cubeSum t base seg set q n kb p v
    let x := fpRound true false ⟨sum, (blkExp v.blk : Int) - 137 + 4 * (p : Int)⟩
    match acc with
    | none => some x
    | some a => some (fpAdd a x)) g

/-- What one K step gives an entry: t = fp32(G × s) and the flags of its blocks (R140, step 3 of R171). A poisoned block contributes nothing. -/
def State.kStepTerm (s : State) (c : Nat) (t : Tile) (base m seg set q n : Nat) : Nat × Bool × Bool :=
  let lo := q * t.kStep / 16
  let hi := ceilDiv (min ((q + 1) * t.kStep) t.kCount) 16
  let first := t.kFirst / 16
  let r := loopUp (hi - lo) (fun j (acc : Option Nat × Bool × Bool) =>
    let v := s.feed c t m seg set (first + lo + j)
    if v.poison then (acc.1, true, acc.2.2 || v.concealed)
    else (s.drainBlock t base seg set q n (lo + j) v acc.1, acc.2.1, acc.2.2 || v.concealed)) (none, false, false)
  let sc := fp16to32 (bits (s.wParam t base seg set q n) 0 16)
  (fpMul (r.1.getD 0) sc, r.2.1, r.2.2)

/-- Does an uncorrectable word of the stage hold a code or the parameter of a weight group (R140)? -/
def State.groupBad (s : State) (t : Tile) (base seg set q n : Nat) : Bool :=
  let lo := if t.whole then 0 else q * t.kStep
  let hi := if t.whole then t.kPad else min ((q + 1) * t.kStep) t.kPad
  s.uncorr (t.paramAddr base seg set q n) 4
    || loopUp (hi - lo) (fun j b => b || s.uncorr (t.codeAddr base seg set (lo + j) n) (ceilDiv (wBits t.fmt) 8)) false

/-- The marks of a group that a poisoned or concealed block of operand B gave it (R186). -/
def groupMark (w : WBuf) (i : Nat) : Nat := Tab.read (fun _ => 0) w.marks i

/-- An accumulator entry under computation: value, none before its first K step, poison, concealed. -/
abbrev Entry := Option Nat × Bool × Bool

/-- A term joined to an entry: A = fp32(A + t), or t at the first K step (step 4 of R171). -/
def Entry.add (e : Entry) (x : Nat) (neg : Bool) (poison concealed : Bool) : Entry :=
  let v := if neg then fpNeg x else x
  (some (match e.1 with | none => v | some a => fpAdd a v), e.2.1 || poison, e.2.2 || concealed)

/-- One K step of one weight set added into an entry, with the flags of the group. -/
def State.addStep (s : State) (c : Nat) (t : Tile) (w : WBuf) (base m seg set q n : Nat) (neg : Bool) (e : Entry) : Entry :=
  let x := s.kStepTerm c t base m seg set q n
  let mk := groupMark w (t.paramIdx seg set q n)
  e.add x.1 neg (x.2.1 || s.groupBad t base seg set q n || mk.testBit 0) (x.2.2 || mk.testBit 1)

/-- An entry of a tile after its beats: all K steps in ascending order (R173), for a complex tile region 0 with k1 − k3 and region 1 with k1 + k2 (R141). -/
def State.entryOf (s : State) (c : Nat) (t : Tile) (w : WBuf) (base m seg n region : Nat) (start : Entry) : Entry :=
  loopUp t.kSteps (fun q (e : Entry) =>
    if t.kind = 1 then
      let e1 := s.addStep c t w base m seg 0 q n false e
      if region = 0 then s.addStep c t w base m seg 2 q n true e1 else s.addStep c t w base m seg 1 q n false e1
    else s.addStep c t w base m seg 0 q n false e) start

/-- The flags kept beside an FP32 value that stands in memory between two tiles: bit 0 poison, 1 concealed (R176, log entry 24). -/
def State.fpFlags (s : State) (a : Nat) : Nat := Tab.read (fun _ => 0) s.pln.spec a

/-- The partial sum that a tile with preload starts row `r`, column `n` from, with its flags (R176, R215). -/
def State.preloadOf (s : State) (c : Nat) (t : Tile) (r n : Nat) : Entry :=
  let a := scratchAddr c 0 + t.f 20 0 22 + 4 * (32 * r + n)
  if t.preload then (some (s.rdMem a 4), s.uncorr a 4 || (s.fpFlags a).testBit 0, (s.fpFlags a).testBit 1)
  else (none, false, false)

/-- An entry written into the slice with its flags; the drain clears what stood there (R140). -/
def State.putAcc (s : State) (c a e : Nat) (v : Entry) : State :=
  let s1 := s.wrMem (accAddr c a e) 4 (v.1.getD 0)
  let k := s1.core c
  s1.setCore c { k with flags := Tab.write (fun _ => 0) k.flags (65536 * a + e) (b2n v.2.1 + 2 * b2n v.2.2) }

/-- Every entry of tile row `r`; a hole's row and a ragged row are fed zeros and set no flag (R214). -/
def State.beatRow (s0 : State) (c : Nat) (t : Tile) (w : WBuf) (base r : Nat) (s : State) : State :=
  let a := t.arrayOf r
  loopUp (if t.kind = 1 then 2 else 1) (fun region x =>
    loopUp 32 (fun n y =>
      let v : Entry := match t.row r with
        | some m => if t.holeRow m then (some 0, false, false) else s0.entryOf c t w base m (t.segOf r) n region (s0.preloadOf c t r n)
        | none => (some 0, false, false)
      y.putAcc c a (t.accEntry r n region) v) x) s

/-- The input blocks that the feeders read for tile row `r` (R183). -/
def Tile.feedAddrs (t : Tile) (c r : Nat) : List Nat :=
  match t.row r with
  | none => []
  | some m => (List.range t.sets).foldl (fun (l : List Nat) set =>
      l ++ (List.range (ceilDiv t.kCount 16)).filterMap (fun kb => t.feedAt c m (t.segOf r) set (t.kFirst / 16 + kb))) []

/-- The errors met by the feeders over every block that the tile reads. -/
def State.noteFeeds (s : State) (c : Nat) (t : Tile) : State :=
  (((List.range t.mCount).foldl (fun (l : List Nat) r => l ++ t.feedAddrs c r) []).eraseDups).foldl (fun x a => x.noteInput c t a) s

/-- The errors met in the weight stage: TC_ERR.weight_uncorr (Table 6.8). -/
def State.noteWeights (s : State) (c : Nat) (t : Tile) (base : Nat) : State :=
  let n := t.codeBytes
  let p := 4 * t.paramCount
  let s1 := (s.noteRead (holderName 6 c) (some t.part) base n).noteRead (holderName 6 c) (some t.part) (base + 0x38000) p
  if s.uncorr base n || s.uncorr (base + 0x38000) p then s1.tcErr c 3 0 t else s1

/-- Beats of a tile (R129, R135, R137): per M step and SE12 block, 4 in each pass of each set. -/
def Tile.beatCount (t : Tile) : Nat :=
  ceilDiv t.mCount (32 * max 1 t.n) * ceilDiv t.kCount 16 * passes t.fmt * t.sets * 4

/-- A tile's beats: what they leave in the accumulator slices, and the errors that the feeders and the weight feed unit met. -/
def State.runBeats (s : State) (c : Nat) (t : Tile) (w : WBuf) (b : Nat) : State :=
  let base := stageBase c b
  let s1 := loopUp t.mCount (fun r x => s.beatRow c t w base r x) s
  ((s1.noteFeeds c t).noteWeights c t base).bump64 (Reg.tcBeats c) t.beatCount

/-! ### MATMUL_RT: operand B quantised (R186) -/

/-- The block and channel of element (k, n) of operand B for a segment. -/
def Tile.bPlace (t : Tile) (seg k n : Nat) : Nat × Nat :=
  let h := max 1 t.aux0
  let g := t.mFirst / max 1 t.segLen + seg
  let col := 32 * t.nBlock + n
  let smp := g / h
  let ch := if t.facts.in2Trans then (g % h) * 16 * t.cbK + k else (g % h) * t.facts.cout + col
  let pos := smp * t.facts.in2Rows + (if t.facts.in2Trans then col else k)
  (t.facts.in2 + 32 * (t.facts.in2Cb * pos + ch / 16), ch % 16)

/-- Elements of K that operand B holds. -/
def Tile.bK (t : Tile) : Nat := if t.facts.in2Trans then t.kCount else min t.kCount t.facts.in2Rows

/-- Is column `n` of operand B past N? -/
def Tile.bPast (t : Tile) (n : Nat) : Bool :=
  decide ((if t.facts.in2Trans then min t.facts.cout t.facts.in2Rows else t.facts.cout) ≤ 32 * t.nBlock + n)

/-- The group of 64 elements of column `n` from K index 64q on, as FP32 values, with its flags; a column past N holds zeros, and the last group of a column may be shorter (R165, R186). -/
def State.bGroup (s : State) (t : Tile) (seg q n : Nat) : List Nat × Nat :=
  let len := min 64 (t.bK - 64 * q)
  if t.bPast n then (List.replicate len 0, 0)
  else
    loopUp len (fun j (acc : List Nat × Nat) =>
      let p := t.bPlace seg (64 * q + j) n
      let v := s.seeBlk (s.classS t.part) p.1
      (acc.1 ++ [v.val p.2], acc.2 ||| (b2n v.poison + 2 * b2n v.concealed))) ([], 0)

/-- The blocks of operand B that the vector engine reads for a tile. -/
def Tile.bReads (t : Tile) : List Nat :=
  let cols := (List.range 32).filter (fun n => !t.bPast n)
  (List.range t.segN).flatMap (fun seg =>
    if t.facts.in2Trans then cols.flatMap (fun n => (List.range (ceilDiv t.bK 16)).map (fun kb => (t.bPlace seg (16 * kb) n).1))
    else (List.range t.bK).flatMap (fun k => (cols.map (fun n => (t.bPlace seg k n).1)).eraseDups))

/-- Bytes of the codes and of the parameters of one segment and set in a weight area, which holds the codes of each followed by its parameters (log entry 22). -/
def Tile.chunk (t : Tile) : Nat × Nat := (t.kPad * 4 * wBits t.fmt, 128 * t.groupsK)

/-- A write within the w_lines lines of a tile's scratchpad area; past them nothing is written (SCRATCH_FENCE, R207). -/
def State.wrArea (s : State) (t : Tile) (area off n v : Nat) : State :=
  if off + n ≤ 64 * t.wLines then s.wrMem (area + off) n v else s

/-- The codes, parameters and marks of operand B written to the tile's scratchpad area at `area`, from which the fill port loads them; K positions past B's own hold the code zp (R165). -/
def State.quantB (s0 : State) (t : Tile) (area : Nat) (s : State) : State × Tab Nat :=
  let ch := t.chunk
  loopUp t.segN (fun seg x => loopUp (ceilDiv t.kPad 64) (fun q y => loopUp 32 (fun n (z : State × Tab Nat) =>
    let g := s0.bGroup t seg q n
    let w := (quantGroup 8 g.1).getD { scale := 0, zp := 0, codes := g.1.map (fun _ => 0) }
    let at_ := seg * (ch.1 + ch.2)
    let s1 := z.1.wrArea t area (at_ + ch.1 + 4 * (32 * q + n)) 4 (w.scale + w.zp <<< 16)
    let s2 := (List.range (min 64 (t.kPad - 64 * q))).foldl (fun (u : State) j =>
      u.wrArea t area (at_ + 32 * (64 * q + j) + n) 1 ((w.codes[j]?).getD w.zp)) s1
    (s2, Tab.write (fun _ => 0) z.2 (t.paramIdx seg 0 q n) g.2)) y) x) (s, [])

end Sys2Proof.Machine
end

