-- ==== Sys2Proof/Machine/VectorOps.lean ====
section
/-!
DEFINITION. The vector engine's operators: epilogues, the sliding window, pooling, resize and the rest of Table 8.1 (R143 to R146, R174, R175, R195 to R201).
-/
namespace Sys2Proof.Machine

/-- 1.0 and 0.5 in FP32. -/
def fpOne : Nat := 0x3F800000
/-- One half. -/
def fpHalf : Nat := 0x3F000000

/-- The activation of Table 8.3 applied (R175): ReLU, clamp and leaky ReLU exactly, GELU, sigmoid and tanh within their errors. -/
def Tile.act (t : Tile) (v : Nat) : Nat :=
  match t.o 2 0 8 with
  | 1 => if fpLt v 0 then 0 else v
  | 2 => fpMin (fpMax v t.p0) t.p1
  | 3 => if fpLt v 0 then fpMul v t.p0 else v
  | 4 => fpAct 2 v
  | 5 => fpAct 0 v
  | 6 => fpAct 1 v
  | _ => v

/-- The epilogue of one value of output channel `ch`: bias, then activation (R175). -/
def Tile.finish (t : Tile) (ch v : Nat) : Nat := t.act (if t.o 1 0 1 = 1 then fpAdd v (t.facts.aux.le (4 * ch) 4) else v)

/-- An exponential within a relative error of 2^-13 (R198). -/
def vecExp (v : Nat) : Nat :=
  if fpNaN v then fpQNaN
  else if fpInf v then (if fpSign v then 0 else fpRound true false (dyExp 0x42B40000))
  else bounded (Config.actFn 3 (BitVec.ofNat 32 v)).toNat (dyExp v)

/-- A reciprocal square root within a relative error of 2^-13 (R198); for a number that has none the manual states no value, and it is the part's (log entry 16). -/
def vecRsqrt (v : Nat) : Nat :=
  let free := (Config.actFn 4 (BitVec.ofNat 32 v)).toNat
  if fpNaN v then fpQNaN
  else if fpZero v || fpSign v || fpInf v then free
  else bounded free (dyRsqrt v)

/-- What an operator gives one output block: 16 FP32 values, poison, concealed, and the blocks that it read for it. -/
structure OutBlk where
  vals : List Nat
  reads : List Nat := []
  poison : Bool := false
  concealed : Bool := false
  deriving DecidableEq, Repr

/-- A block of the operator's values as the writer stores it: poisoned, or converted with its status (R143, R162, R176). -/
def OutBlk.block (b : OutBlk) : Nat :=
  let st := 2 * b2n b.concealed
  if b.poison then poisonBlock st else se12Of b.vals st

/-- The input block seen at a position of a sample. -/
def State.inSeen (s : State) (c : Nat) (t : Tile) (smp : Nat) (r x : Int) (cb : Nat) : Seen :=
  match t.inAt c smp r x cb with
  | none => {}
  | some a => s.seeBlk (s.classS t.part) a

/-- Blocks read together: their flags joined. -/
def seenFlags (l : List Seen) : Bool × Bool := (l.any (fun v => v.poison), l.any (fun v => v.concealed))

/-- 16 values from a function of the channel, with the flags of the blocks read. -/
def outOf (l : List Seen) (f : Nat → Nat) : OutBlk :=
  { vals := (List.range 16).map f, reads := l.filterMap (fun v => v.src), poison := (seenFlags l).1, concealed := (seenFlags l).2 }

/-- Sum of a list in order, from its first element. -/
def fpSum : List Nat → Nat
  | [] => 0
  | a :: t => t.foldl fpAdd a

/-- Greatest of a list. -/
def fpMaxL : List Nat → Nat
  | [] => 0
  | a :: t => t.foldl fpMax a

/-- a × (1 − w) + b × w, each operation rounded. -/
def lerp (a b w : Nat) : Nat := fpAdd (fpMul a (fpSub fpOne w)) (fpMul b w)

/-! ### Windows (R198) -/

/-- The positions of a pooling window in raster order. -/
def Tile.window (t : Tile) (ho wo : Nat) : List (Int × Int) :=
  (List.range (t.kh * t.kw)).map (fun k =>
    (((ho * t.sh + k / t.kw : Nat) : Int) - t.padT, ((wo * t.sw + k % t.kw : Nat) : Int) - t.padL))

/-- Does a position lie inside the tensor? -/
def Tile.inside (t : Tile) (p : Int × Int) : Bool :=
  decide (0 ≤ p.1) && decide (0 ≤ p.2) && decide (p.1 < (t.inH : Int)) && decide (p.2 < (t.inW : Int))

/-- POOL: maximum, or average excluding or including pads; padding reads as zero (Table 8.2, log entry 23). -/
def State.poolBlk (s : State) (c : Nat) (t : Tile) (smp ho wo cb : Nat) : OutBlk :=
  let ps := if t.sub = 1 then (t.window ho wo).filter t.inside else t.window ho wo
  let vs := ps.map (fun p => s.inSeen c t smp p.1 p.2 cb)
  outOf vs (fun i =>
    let xs := vs.map (fun v => v.val i)
    if t.sub = 0 then fpMaxL xs else fpMul (fpSum xs) (fpDiv fpOne (fpOfInt (max 1 xs.length : Nat))))

/-- GLOBAL_POOL: rows ascending, columns within each row. -/
def State.globalBlk (s : State) (c : Nat) (t : Tile) (smp cb : Nat) : OutBlk :=
  let vs := (List.range (t.inH * t.inW)).map (fun p => s.inSeen c t smp (p / t.inW : Nat) (p % t.inW : Nat) cb)
  outOf vs (fun i =>
    let xs := vs.map (fun v => v.val i)
    if t.sub = 1 then fpMaxL xs else fpMul (fpSum xs) (fpDiv fpOne (fpOfInt (max 1 xs.length : Nat))))

/-- The source of output index `i` of an axis (R198): the two neighbours, clamped, and the weight of the second; nearest takes floor((i + 0.5) / f). -/
def resizeAt (inN outN i : Nat) (bilinear : Bool) : Nat × Nat × Nat :=
  let o := max 1 outN
  if bilinear then
    let num : Int := ((2 * i + 1) * inN : Nat) - (o : Int)
    let den : Int := 2 * o
    let fl := num.fdiv den
    let cl := fun (x : Int) => (clampInt 0 ((inN : Int) - 1) x).toNat
    (cl fl, cl (fl + 1), fpDiv (fpOfInt (num - fl * den)) (fpOfInt den))
  else
    let k := min ((2 * i + 1) * inN / (2 * o)) (inN - 1)
    (k, k, 0)

/-- RESIZE: nearest or bilinear. -/
def State.resizeBlk (s : State) (c : Nat) (t : Tile) (smp ho wo cb : Nat) : OutBlk :=
  let y := resizeAt t.inH t.aux0 ho (t.sub == 1)
  let x := resizeAt t.inW t.aux1 wo (t.sub == 1)
  let at_ := fun (r q : Nat) => s.inSeen c t smp r q cb
  let a := at_ y.1 x.1
  let b := at_ y.1 x.2.1
  let d := at_ y.2.1 x.1
  let e := at_ y.2.1 x.2.1
  if t.sub = 0 then outOf [a] (fun i => a.val i)
  else outOf [a, b, d, e] (fun i => lerp (lerp (a.val i) (b.val i) x.2.2) (lerp (d.val i) (e.val i) x.2.2) y.2.2)

/-- ELTWISE: add, subtract, multiply, max, min with a second input of equal shape or one value per channel. -/
def State.eltBlk (s : State) (c : Nat) (t : Tile) (smp p cb : Nat) : OutBlk :=
  let w := max 1 t.inW
  let a := s.inSeen c t smp (p / w : Nat) (p % w : Nat) cb
  let b := if t.hole smp then {} else s.seeBlk (s.classS t.part)
    (t.facts.in2 + 32 * (if t.o 1 3 1 = 1 then cb else t.facts.in2Cb * (smp * t.facts.in2Rows + p) + cb))
  outOf [a, b] (fun i =>
    let x := a.val i
    let y := b.val i
    match t.sub with
    | 0 => fpAdd x y
    | 1 => fpSub x y
    | 2 => fpMul x y
    | 3 => fpMax x y
    | _ => fpMin x y)

/-- Every block of a position. -/
def State.posBlks (s : State) (c : Nat) (t : Tile) (smp p : Nat) : List Seen :=
  (List.range t.inCb).map (fun cb => s.inSeen c t smp (p / max 1 t.inW : Nat) (p % max 1 t.inW : Nat) cb)

/-- The channels of a position, ascending. -/
def chans (l : List Seen) (n : Nat) : List Nat := (List.range n).map (fun i => ((l[i / 16]?).getD {}).val (i % 16))

/-- SOFTMAX over channels: exp(p0 × x − max) / Σ, channels ascending. -/
def State.softBlk (s : State) (c : Nat) (t : Tile) (smp p cb : Nat) : OutBlk :=
  let l := s.posBlks c t smp p
  let xs := (chans l t.facts.cin).map (fun v => fpMul t.p0 v)
  let m := fpMaxL xs
  let es := xs.map (fun v => vecExp (fpSub v m))
  let sum := fpSum es
  outOf l (fun i => match es[16 * cb + i]? with | some e => fpDiv e sum | none => 0)

/-- LAYERNORM over channels: mean, then population variance, then (x − mean) × rsqrt(var + ε) × γ + β. -/
def State.layerBlk (s : State) (c : Nat) (t : Tile) (smp p cb : Nat) : OutBlk :=
  let l := s.posBlks c t smp p
  let n := t.facts.cin
  let xs := chans l n
  let mean := fpDiv (fpSum xs) (fpOfInt (max 1 n : Nat))
  let ds := xs.map (fun v => fpSub v mean)
  let var := fpDiv (fpSum (ds.map (fun d => fpMul d d))) (fpOfInt (max 1 n : Nat))
  let r := vecRsqrt (fpAdd var t.p0)
  outOf l (fun i =>
    let ch := 16 * cb + i
    match ds[ch]? with
    | some d => fpAdd (fpMul (fpMul d r) (fp16to32 (t.facts.aux.le (2 * ch) 2))) (fp16to32 (t.facts.aux.le (2 * (n + ch)) 2))
    | none => 0)

/-- The lowest index of the largest value, and the value. -/
def argMax : List Nat → Nat → Nat × Nat
  | [], _ => (0, 0)
  | [a], i => (i, a)
  | a :: t, i => let r := argMax t (i + 1); if fpLt a r.2 then r else (i, a)

/-- ARGMAX_C: index in channel 0, value in channel 1, zeros after. -/
def State.argBlk (s : State) (c : Nat) (t : Tile) (smp p cb : Nat) : OutBlk :=
  let l := s.posBlks c t smp p
  let r := argMax (chans l t.facts.cin) 0
  outOf l (fun i => if cb ≠ 0 then 0 else if i = 0 then fpOfInt (r.1 : Nat) else if i = 1 then r.2 else 0)

/-- S2D and D2S (R201, stage 8 of Table 5.2). -/
def State.s2dBlk (s : State) (c : Nat) (t : Tile) (smp ho wo cb : Nat) : OutBlk :=
  let f := max 1 t.aux0
  let src := fun (ch : Nat) =>
    if t.sub = 0 then
      let g := ch / max 1 t.facts.cin
      (f * ho + g / f, f * wo + g % f, ch % max 1 t.facts.cin, decide (g < f * f))
    else (ho / f, wo / f, (ho % f * f + wo % f) * t.facts.cout + ch, decide (ch < t.facts.cout))
  let seen := fun (i : Nat) => let q := src (16 * cb + i); if q.2.2.2 then s.inSeen c t smp q.1 q.2.1 (q.2.2.1 / 16) else {}
  outOf ((List.range 16).map seen) (fun i => (seen i).val ((src (16 * cb + i)).2.2.1 % 16))

/-- COPY: aux1 channels from input channel 0 to output channel aux0, the others of the block kept as they stand; or the H–W transpose. -/
def State.copyBlk (s : State) (c : Nat) (t : Tile) (smp ho wo cb out : Nat) : OutBlk :=
  if t.sub = 1 then
    let v := s.inSeen c t smp wo ho cb
    outOf [v] (fun i => v.val i)
  else
    let old := { s.seeBlk false out with src := none }
    let at_ := fun (i : Nat) =>
      let ch := 16 * cb + i
      if t.aux0 ≤ ch ∧ ch < t.aux0 + t.aux1 then (s.inSeen c t smp ho wo ((ch - t.aux0) / 16), (ch - t.aux0) % 16) else (old, i)
    outOf ((List.range 16).map (fun i => (at_ i).1)) (fun i => (at_ i).1.val (at_ i).2)

/-! ### The sliding-window path (R144, R174) -/

/-- The expanded FP16 weight of output channel `oc`, tap and group channel: (code − zero point) × scale, as FP32. -/
def State.dwWeight (s : State) (t : Tile) (base tap cg oc : Nat) : Nat :=
  let g := max 1 (t.facts.cin / t.groups)
  let k := tap * g + cg
  let pm := s.wParam t base 0 0 (k / t.kStep) (oc % 32)
  let d : Int := (s.wCode t base 0 0 k (oc % 32) : Nat) - (bits pm 16 16 : Nat)
  fp16to32 (fp16Rne (fpMul (fpOfInt d) (fp16to32 (bits pm 0 16))))

/-- Is a weight group of output channel `oc` read with an uncorrectable error (Table 6.8)? -/
def State.dwBad (s : State) (t : Tile) (base oc : Nat) : Bool :=
  (List.range t.kSteps).any (fun q => s.groupBad t base 0 0 q (oc % 32))

/-- One block of DWCONV: taps in raster order, the group's channels ascending, each addition rounded; poisoned by a window block or by a weight group of one of its channels (Tables 6.8, 7.6). -/
def State.dwBlk (s : State) (c : Nat) (t : Tile) (base smp ho wo cb : Nat) : OutBlk :=
  let g := max 1 (t.facts.cin / t.groups)
  let per := max 1 (t.facts.cout / t.groups)
  let at_ := fun (oc tap cg : Nat) =>
    let ci := oc / per * g + cg
    (s.inSeen c t smp (((ho * t.sh + tap / t.kw * t.dh : Nat) : Int) - t.padT) (((wo * t.sw + tap % t.kw * t.dw : Nat) : Int) - t.padL) (ci / 16), ci % 16)
  let pairs := (List.range (t.kh * t.kw)).foldl (fun (l : List (Nat × Nat)) tap => l ++ (List.range g).map (fun cg => (tap, cg))) []
  let chs := (List.range 16).filter (fun i => decide (16 * cb + i < t.facts.cout))
  let blk := outOf (chs.flatMap (fun i => pairs.map (fun p => (at_ (16 * cb + i) p.1 p.2).1)))
    (fun i =>
      let oc := 16 * cb + i
      if t.facts.cout ≤ oc then 0
      else t.finish oc (fpSum (pairs.map (fun p =>
        let v := at_ oc p.1 p.2
        let w := s.dwWeight t base p.1 p.2 oc
        fpRound true false (dyMul (blkDy v.1.blk v.2) (fpDy w))))))
  { blk with poison := blk.poison || chs.any (fun i => s.dwBad t base (16 * cb + i)) }

/-! ### ROI_ALIGN (R199) -/

/-- One bilinear sample at FP32 coordinates, neighbours clamped to the edge: the four blocks and the weights. -/
def State.roiPoint (s : State) (c : Nat) (t : Tile) (smp cb y x : Nat) : List Seen × Nat × Nat :=
  let fl := fun (v : Nat) => fxOf v / fxOne
  let cl := fun (n : Nat) (v : Int) => clampInt 0 ((n : Int) - 1) v
  let y0 := fl y
  let x0 := fl x
  let at_ := fun (r q : Int) => s.inSeen c t smp (cl t.inH r) (cl t.inW q) cb
  ([at_ y0 x0, at_ y0 (x0 + 1), at_ (y0 + 1) x0, at_ (y0 + 1) (x0 + 1)], fpSub y (fpOfInt y0), fpSub x (fpOfInt x0))

/-- The value of a bilinear sample in a channel. -/
def roiVal (p : List Seen × Nat × Nat) (i : Nat) : Nat :=
  let v := fun (k : Nat) => ((p.1[k]?).getD {}).val i
  lerp (lerp (v 0) (v 1) p.2.2) (lerp (v 2) (v 3) p.2.2) p.2.1

/-- Bins of one box of ROI_ALIGN: output rows and columns. -/
def Tile.roiBins (t : Tile) : Nat × Nat := (max 1 (bits t.aux0 0 8), max 1 (bits t.aux0 8 8))

/-- The box that output position `p` of a sample belongs to. -/
def Tile.roiBox (t : Tile) (p : Nat) : Nat := p / (t.roiBins.1 * t.roiBins.2)

/-- Does row `m` belong to a box of ROI_ALIGN beyond 256 in its sample, which is ignored (R199)? -/
def Tile.roiOver (t : Tile) (m : Nat) : Bool := decide (t.op = 0x19) && decide (256 ≤ t.roiBox (t.place m).2)

/-- The address of box `box` of sample `smp` in the box tensor. -/
def Tile.boxAddr (t : Tile) (smp box : Nat) : Nat := t.facts.in2 + 8 * (smp * t.facts.in2Rows + box)

/-- One output block of ROI_ALIGN: position p counts bins within boxes; the sr × sr points of a bin are averaged in raster order. A box that reads with an uncorrectable error poisons its blocks. -/
def State.roiBlk (s : State) (c : Nat) (t : Tile) (smp p cb : Nat) : OutBlk :=
  let oh := t.roiBins.1
  let ow := t.roiBins.2
  let sr := max 1 t.aux1
  let ba := t.boxAddr smp (t.roiBox p)
  let bx := s.rdMem ba 8
  let co := fun (k : Nat) => fpMul (fp16to32 (bits bx (16 * k) 16)) t.p0
  let size := fun (lo hi n : Nat) => fpDiv (fpSub hi lo) (fpOfInt (n : Nat))
  let pt := fun (start bsz bin k : Nat) =>
    fpSub (fpAdd start (fpMul (fpAdd (fpOfInt (bin : Nat)) (fpDiv (fpAdd (fpOfInt (k : Nat)) fpHalf) (fpOfInt (sr : Nat)))) bsz)) fpHalf
  let pts := (List.range (sr * sr)).map (fun k =>
    s.roiPoint c t smp cb (pt (co 1) (size (co 1) (co 3) oh) (p / ow % oh) (k / sr)) (pt (co 0) (size (co 0) (co 2) ow) (p % ow) (k % sr)))
  let blk := outOf (pts.flatMap (fun q => q.1)) (fun i => fpMul (fpSum (pts.map (fun q => roiVal q i))) (fpDiv fpOne (fpOfInt (sr * sr : Nat))))
  { blk with poison := blk.poison || s.uncorr ba 8 }

/-! ### One output block of a vector-only tile -/

/-- The 16 values of output block `cb` of logical row `m` (Table 8.1); activation applied to the operators that have one. -/
def State.vecBlk (s : State) (c : Nat) (t : Tile) (base m cb : Nat) : OutBlk :=
  let sp := t.place m
  let w := max 1 t.outW
  let ho := sp.2 / w
  let wo := sp.2 % w
  let raw := match t.op with
    | 0x11 => s.poolBlk c t sp.1 ho wo cb
    | 0x12 => s.globalBlk c t sp.1 cb
    | 0x13 => s.resizeBlk c t sp.1 ho wo cb
    | 0x14 => s.eltBlk c t sp.1 sp.2 cb
    | 0x16 => s.softBlk c t sp.1 sp.2 cb
    | 0x17 => s.layerBlk c t sp.1 sp.2 cb
    | 0x18 => s.argBlk c t sp.1 sp.2 cb
    | 0x19 => s.roiBlk c t sp.1 sp.2 cb
    | 0x1B => s.s2dBlk c t sp.1 ho wo cb
    | 0x1C => s.copyBlk c t sp.1 ho wo cb (t.outBlk c m cb)
    | 0x10 => s.dwBlk c t base sp.1 ho wo cb
    | _ => let v := s.inSeen c t sp.1 ho wo cb; outOf [v] (fun i => v.val i)
  if t.op = 0x10 then raw
  else { raw with vals := (List.range 16).map (fun i => if t.facts.cout ≤ 16 * cb + i && !(t.op == 0x18) then 0 else t.act ((raw.vals[i]?).getD 0)) }

/-- The 16 values of output block `half` (0 or 1) of an N block, tile row `r`, from the accumulator (R143, R175): bias, activation, flags; a channel past Cout is 0. -/
def State.epiBlk (s : State) (c : Nat) (t : Tile) (r half : Nat) : OutBlk :=
  let a := t.arrayOf r
  let e := fun (i : Nat) => t.accEntry r (16 * half + i) 0
  let fl := fun (i : Nat) => Tab.read (fun _ => 0) (s.core c).flags (65536 * a + e i)
  let any := fun (b : Nat) => (List.range 16).any (fun i => (fl i).testBit b)
  let bad := (List.range 16).any (fun i => s.uncorr (accAddr c a (e i)) 4)
  { vals := (List.range 16).map (fun i =>
      match t.chanOf (16 * half + i) with
      | none => 0
      | some ch => t.finish ch (s.rdMem (accAddr c a (e i)) 4)),
    poison := any 0 || bad, concealed := any 1 }

/-! ### The frequency path (R190 to R195) -/

/-- Valid output rows and columns of a tile: 33 − kh and 33 − kw. -/
def Tile.vh (t : Tile) : Nat := 33 - t.kh
/-- Valid columns. -/
def Tile.vw (t : Tile) : Nat := 33 - t.kw

/-- Tiles of the operator. -/
def Tile.fTiles (t : Tile) : Nat := t.facts.samples * t.facts.ty * t.facts.tx

/-- The 32 × 32 input window of tile `k`, channel `i` of block `cb`. -/
def State.fWindow (s : State) (c : Nat) (t : Tile) (k cb i : Nat) : List (List Cpx) :=
  let per := max 1 (t.facts.ty * t.facts.tx)
  let y0 : Int := (t.vh * (k % per / max 1 t.facts.tx) : Nat) - (t.padT : Int)
  let x0 : Int := (t.vw * (k % max 1 t.facts.tx) : Nat) - (t.padL : Int)
  (List.range 32).map (fun (r : Nat) => (List.range 32).map (fun (q : Nat) => ((s.inSeen c t (k / per) (y0 + (r : Int)) (x0 + (q : Int)) cb).val i, 0)))

/-- The blocks under the window. -/
def State.fSeen (s : State) (c : Nat) (t : Tile) (k cb : Nat) : List Seen :=
  let per := max 1 (t.facts.ty * t.facts.tx)
  let y0 : Int := (t.vh * (k % per / max 1 t.facts.tx) : Nat) - (t.padT : Int)
  let x0 : Int := (t.vw * (k % max 1 t.facts.tx) : Nat) - (t.padL : Int)
  (List.range 1024).map (fun p => s.inSeen c t (k / per) (y0 + (p / 32 : Nat)) (x0 + (p % 32 : Nat)) cb)

/-- The place of FFT_FWD's block of plane `q`, bin φ, tile `k`, block `cb` from the base (R193). -/
def Tile.planeAt (t : Tile) (q phi k cb : Nat) : Nat := q * 544 * t.fTiles * t.inCb * 32 + 32 * ((phi * t.fTiles + k) * t.inCb + cb)

/-- FFT_FWD of tile `k`, block `cb` (R193): for every kept bin the blocks of planes a + b, a and b, with their byte offsets from the base. -/
def State.fftFwd (s : State) (c : Nat) (t : Tile) (k cb : Nat) : List (Nat × Nat) :=
  let sp := (List.range 16).map (fun i => fft2 (s.fWindow c t k cb i))
  let fl := seenFlags (s.fSeen c t k cb)
  let at_ := fun (i u v : Nat) => cAt ((((sp[i]?).getD [])[u]?).getD []) v
  let one := fun (q phi : Nat) =>
    let vals := (List.range 16).map (fun i =>
      let z := at_ i (phi % 32) (phi / 32)
      if q = 0 then fpAdd z.1 z.2 else if q = 1 then z.1 else z.2)
    (t.planeAt q phi k cb, (OutBlk.block { vals := vals, poison := fl.1, concealed := fl.2 }))
  (List.range 3).foldl (fun (l : List (Nat × Nat)) q => l ++ (List.range 544).map (one q)) []

/-- The accumulator entry of segment `u`, tile row `k` and column `n` in a spectral group (R194). -/
def Tile.specEntry (t : Tile) (u k n region : Nat) : Nat × Nat :=
  let a := nthArray t.arrays 4 (k / 32 % max 1 t.n)
  (a, t.accFirst a + region * t.regionSize a + 32 * (32 * u + k % 32) + n)

/-- The address of entry (k, o, r, v) of the column-spectrum buffer, whose channels are Co, whole N blocks (R189, R195). -/
def Tile.colAddr (t : Tile) (base k o r v : Nat) : Nat := base + 8 * (((k * t.coAll + o) * t.vh + r) * 17 + v)

/-- FFT_INV_A of tile `k`, output column `n` (R195): the inverse along u, rows 0 to vh − 1, as (byte offset, real, imaginary). -/
def State.fftInvA (s : State) (c : Nat) (t : Tile) (k n : Nat) : List (Nat × Nat × Nat) :=
  let local_ := k - t.mFirst
  let z := (List.range 32).map (fun u =>
    let re := t.specEntry u local_ n 0
    let im := t.specEntry u local_ n 1
    (s.rdMem (accAddr c re.1 re.2) 4, s.rdMem (accAddr c im.1 im.2) 4))
  let y := fft32 true z
  (List.range t.vh).map (fun r => (t.colAddr 0 k (32 * t.nBlock + n) r t.facts.bin, (cAt y r).1, (cAt y r).2))

/-- Is any accumulator entry of a tile's column poisoned, by its flag or by an uncorrectable read, or concealed (R140, Table 7.6)? -/
def State.specFlag (s : State) (c : Nat) (t : Tile) (k n b : Nat) : Bool :=
  (List.range 64).any (fun j =>
    let e := t.specEntry (j % 32) (k - t.mFirst) n (j / 32)
    (Tab.read (fun _ => 0) (s.core c).flags (65536 * e.1 + e.2)).testBit b || (b == 0 && s.uncorr (accAddr c e.1 e.2) 4))

/-- FFT_INV_B: the vw values of row `r` of tile `k`, output channel `o`, from the column-spectrum buffer. -/
def State.fftInvB (s : State) (t : Tile) (k o r : Nat) : List Nat :=
  ifftRow ((List.range 17).map (fun v =>
    let a := t.colAddr t.facts.in2 k o r v
    (s.rdMem a 4, s.rdMem (a + 4) 4)))

/-- Is any entry of a tile's column in the column-spectrum buffer poisoned or concealed (Table 7.6; its flags are kept beside the buffer, log entry 24)? -/
def State.colFlag (s : State) (t : Tile) (k o b : Nat) : Bool :=
  (List.range (17 * t.vh)).any (fun i =>
    let a := t.colAddr t.facts.in2 k o (i / 17) (i % 17)
    (s.fpFlags a).testBit b || (b == 0 && s.uncorr a 8))

end Sys2Proof.Machine
end

