-- ==== Sys2Proof/Machine/TileChecks.lean ====
section
/-!
DEFINITION. The checks at issue (R180, R211, R212, R219).
-/
namespace Sys2Proof.Machine

/-! ### The limits of Table 8.1 -/

/-- Is the code listed in Table 8.1? -/
def opListed (op : Nat) : Bool :=
  [0x01, 0x02, 0x03, 0x08, 0x09, 0x0A, 0x0B, 0x10, 0x11, 0x12, 0x13, 0x14, 0x15, 0x16, 0x17, 0x18, 0x19, 0x1A, 0x1B, 0x1C].contains op

/-- Is the code internal? -/
def opInternal (op : Nat) : Bool := [0x08, 0x09, 0x0A, 0x0B].contains op

/-- A number within bounds. -/
def within (lo hi n : Nat) : Bool := decide (lo ≤ n) && decide (n ≤ hi)

/-- Each pad at most (k − 1) × d. -/
def padsOk (o : Nat) : Bool :=
  let b := fun (i : Nat) => bits o (8 * i) 8
  let mh := (b 4 - 1) * bits o 56 4
  let mw := (b 5 - 1) * bits o 60 4
  decide (b 8 ≤ mh) && decide (b 9 ≤ mw) && decide (b 10 ≤ mh) && decide (b 11 ≤ mw)

/-- The filter sizes, strides and dilations of DWCONV (Table 8.1). -/
def dwSizes (o : Nat) : Bool :=
  let b := fun (i : Nat) => bits o (8 * i) 8
  (b 4 == 3 || b 4 == 5 || b 4 == 7) && b 4 == b 5 && within 1 2 (bits o 48 4) && within 1 2 (bits o 52 4)
    && within 1 4 (bits o 56 4) && within 1 4 (bits o 60 4) && decide (1 ≤ bits o 96 16)

/-- Is an operator block within the limits of Table 8.1? `o` is the block, then channels in and out, height and width in. -/
def opLimits (o cin cout h w : Nat) : Bool :=
  let b := fun (i : Nat) => bits o (8 * i) 8
  let sh := bits o 48 4
  let sw := bits o 52 4
  let dh := bits o 56 4
  let dw := bits o 60 4
  let groups := bits o 96 16
  let aux0 := bits o 144 16
  let aux1 := bits o 160 16
  let actOk := decide (b 2 ≤ 6)
  actOk && (match b 0 with
    | 0x01 => within 1 31 (b 4) && within 1 31 (b 5) && within 1 4 sh && within 1 4 sw && within 1 8 dh && within 1 8 dw && padsOk o
        && within 1 8192 cin && within 1 8192 cout && decide (b 4 * b 5 * 16 * ceilDiv cin 16 ≤ 131072) && decide (1 ≤ groups)
    | 0x02 => within 1 131072 cin && within 1 8192 cout
    | 0x03 => within 1 256 cin && within 1 8192 cout && within 1 1024 aux0
    | 0x10 => dwSizes o && decide (cin / max 1 groups ≤ 16)
    | 0x11 => within 1 8 (b 4) && within 1 8 (b 5) && within 1 8 sh && within 1 8 sw && decide (b 3 ≤ 2)
    | 0x12 => decide (h * w ≤ 1048576) && decide (b 3 ≤ 1)
    | 0x13 => decide (h ≤ 8 * aux0) && decide (aux0 ≤ 8 * h) && decide (w ≤ 8 * aux1) && decide (aux1 ≤ 8 * w) && decide (b 3 ≤ 1)
    | 0x14 => decide (b 3 ≤ 4)
    | 0x15 => true
    | 0x16 => decide (cin ≤ 8192)
    | 0x17 => decide (cin ≤ 8192)
    | 0x18 => decide (cin ≤ 2048)
    | 0x19 => within 1 32 (bits aux0 0 8) && within 1 32 (bits aux0 8 8) && within 1 4 aux1
    | 0x1A => within 1 16 aux0 && within 1 1024 aux1 && decide (b 3 ≤ 1)
    | 0x1B => (aux0 == 2 || aux0 == 4) && decide (b 3 ≤ 1)
    | 0x1C => decide (b 3 ≤ 1) && (b 3 == 0 || (decide (h ≤ 4096) && decide (w ≤ 4096)))
    | 0x08 => true
    | 0x09 => true
    | 0x0A => true
    | 0x0B => true
    | _ => false)

/-- The operator block of a tile. -/
def Tile.block (t : Tile) : Nat := bits t.desc.toNat 256 256

/-- Does the tile run its beats on the arrays? -/
def Tile.onArrays (t : Tile) : Bool := decide (t.kind < 2)

/-- Does an op code suit the kind (OP_FIELD)? A grouped CONV or DWCONV with more than 16 channels per group runs on the arrays. -/
def Tile.opSuits (t : Tile) : Bool :=
  let wide := decide (16 < t.facts.cin / t.groups)
  match t.kind with
  | 0 => t.op == 0x01 || t.op == 0x02 || t.op == 0x03 || (t.op == 0x10 && wide)
  | 1 => t.op == 0x09
  | _ => !(t.op == 0x01) && !(t.op == 0x02) && !(t.op == 0x03) && !(t.op == 0x09) && !(t.op == 0x10 && wide)

/-- Within Table 8.1: a DWCONV in groups over 16 channels, which Table 9.5 gives to a matrix tile, keeps the other limits of its row (log entry 22); MATMUL_RT has at most 1,024 batches and heads together. -/
def Tile.opOk (t : Tile) : Bool :=
  if t.op = 0x10 ∧ 16 < t.facts.cin / t.groups then dwSizes t.block && decide (t.o 2 0 8 ≤ 6)
  else opListed t.op && opLimits t.block t.facts.cin t.facts.cout t.inH t.inW
    && (!(t.op == 0x03) || decide (t.facts.samples * t.aux0 ≤ 1024))

/-! ### Regions (R209) -/

/-- The input region in the scratchpad: offset and length. -/
def Tile.inRegion (t : Tile) : Nat × Nat :=
  if t.kind = 1 then (t.inOff, 32 * t.inCb * 3 * t.inH * t.inW)
  else (t.inOff, 32 * t.inCb * t.inW * t.inRows * t.sampleSpan)

/-- The output rows that a tile writes in a tensor in DRAM: the first, and one past the last; an FFT_INV_B tile writes within the samples of its tiles. -/
def Tile.outRows (t : Tile) : Nat × Nat :=
  if t.op = 0x0B then (t.s0 * t.sampleRows, (t.s0 + t.sampleSpan) * t.sampleRows) else (t.rowSpan.1, t.rowSpan.2 + 1)

/-- The output region from out_addr: offset and length, over all rows, columns and samples of the tile (R211). -/
def Tile.outRange (t : Tile) : Nat × Nat :=
  if t.kind = 1 then (0, 0)
  else if t.partialOut then (0, 128 * t.mCount)
  else match t.op with
    | 0x08 => (0, 3 * 544 * t.fTiles * t.inCb * 32)
    | 0x0A => (0, 8 * t.fTiles * t.coAll * t.vh * 17)
    | 0x1A => (32 * 8192 * t.s0, 32 * 8192 * t.sampleSpan)
    | _ =>
      if t.outDram then (32 * t.outCb * t.outRows.1, 32 * t.outCb * (t.outRows.2 - t.outRows.1))
      else (0, 32 * t.outCb * max 1 t.outW * t.outRing * t.sampleSpan)

/-- The scratchpad regions of a tile: input, preload, and what it writes there. -/
def Tile.regions (t : Tile) : List (Nat × Nat) :=
  [t.inRegion]
    ++ (if t.preload then [(t.f 20 0 22, 128 * t.mCount)] else [])
    ++ (if t.outDram && !t.partialOut then [] else [(t.outAddr % 2 ^ 22 + t.outRange.1, t.outRange.2)])
    ++ (if t.wSrc = 3 then [(t.wAddr % 2 ^ 22, 64 * t.wLines)] else [])

/-- The scratchpad banks that a region touches; a region past the scratchpad touches bank 16. -/
def regionBanks (r : Nat × Nat) : List Nat :=
  if r.2 = 0 then []
  else (List.range 17).filter (fun b => decide (r.1 / 0x40000 ≤ b) && decide (b ≤ min 16 ((r.1 + r.2 - 1) / 0x40000)))

/-- Every bank that the tile touches. -/
def Tile.banks (t : Tile) : List Nat := (t.regions.foldl (fun (l : List Nat) r => l ++ regionBanks r) []).eraseDups

/-- The power state of a scratchpad bank: 0 off, 1 retention, 2 on, 3 changing. -/
def State.bankState (s : State) (c b : Nat) : Nat := s.pdState (64 + 16 * c + b)

/-- The DRAM ranges of a tile: output and weights. -/
def Tile.dramRanges (t : Tile) : List (Nat × Nat) :=
  (if t.outDram && !t.partialOut && decide (0 < t.outRange.2) then [(t.outAddr + t.outRange.1, t.outRange.2)] else [])
    ++ (if t.wSrc = 0 ∧ 0 < t.wLines then [(t.wAddr, 64 * t.wLines)] else [])

/-- The tensor rows that the input window of logical row `m` reads; ROI_ALIGN may read any, because its boxes are data. -/
def Tile.rowsRead (t : Tile) (m : Nat) : List Int :=
  let sp := t.place m
  let w := max 1 t.outW
  let ho := sp.2 / w
  match t.op with
  | 0x01 => (List.range t.kh).map (fun k => ((ho * t.sh + k * t.dh : Nat) : Int) - t.padT)
  | 0x10 => (List.range t.kh).map (fun k => ((ho * t.sh + k * t.dh : Nat) : Int) - t.padT)
  | 0x11 => (List.range t.kh).map (fun k => ((ho * t.sh + k : Nat) : Int) - t.padT)
  | 0x02 => [((sp.2 / max 1 t.inW : Nat) : Int)]
  | 0x12 => (List.range t.inH).map (fun (r : Nat) => (r : Int))
  | 0x19 => (List.range t.inH).map (fun (r : Nat) => (r : Int))
  | 0x03 =>
    let e := t.headAt (m / t.rowsOfSeg % max 1 t.aux0) (m % t.rowsOfSeg) 0
    [((e.1 / max 1 t.inW : Nat) : Int)]
  | 0x08 =>
    let y0 : Int := (t.vh * (m % max 1 (t.facts.ty * t.facts.tx) / max 1 t.facts.tx) : Nat) - (t.padT : Int)
    (List.range 32).map (fun (r : Nat) => y0 + (r : Int))
  | 0x1A => [((sp.2 / max 1 t.inW : Nat) : Int)]
  | 0x1B =>
    let f := max 1 t.aux0
    if t.sub = 0 then (List.range f).map (fun k => ((f * ho + k : Nat) : Int)) else [((ho / f : Nat) : Int)]
  | 0x1C => [((if t.sub = 1 then sp.2 % w else ho : Nat) : Int)]
  | 0x13 => let y := resizeAt t.inH t.aux0 ho (t.sub == 1); [(y.1 : Int), (y.2.1 : Int)]
  | 0x14 => [((sp.2 / max 1 t.inW : Nat) : Int)]
  | 0x16 => [((sp.2 / max 1 t.inW : Nat) : Int)]
  | 0x17 => [((sp.2 / max 1 t.inW : Nat) : Int)]
  | 0x18 => [((sp.2 / max 1 t.inW : Nat) : Int)]
  | 0x15 => [(ho : Int)]
  | _ => []

/-- Does a window read a row inside the tensor but outside the ring (WINDOW_OUTSIDE)? -/
def Tile.windowOutside (t : Tile) : Bool :=
  (List.range t.mCount).any (fun r => match t.row r with
    | none => false
    | some m => !t.holeRow m && (t.rowsRead m).any (fun y =>
        decide (0 ≤ y) && decide (y < (t.inH : Int)) && (decide (y < (t.inRow0 : Int)) || decide ((t.inRow0 + t.inRows : Nat) ≤ y))))

/-! ### The accumulator (R212) -/

/-- Rows per array that a claim of a slice gives. -/
def Tile.claimRows (t : Tile) (a : Nat) : Nat := 1024 * popCount 2 (bits t.claim (2 * a) 2)

/-- The footprint in rows per array: twice for a complex tile. -/
def Tile.footprint (t : Tile) : Nat := 32 * ceilDiv t.mCount (32 * max 1 t.n) * (if t.kind = 1 then 2 else 1)

/-- ACC_FOOTPRINT. -/
def Tile.accBad (t : Tile) : Bool :=
  if t.onArrays then
    (List.range 4).any (fun a =>
      if t.arrays.testBit a then decide (t.claimRows a < t.footprint) else decide (bits t.claim (2 * a) 2 ≠ 0))
  else decide (t.claim ≠ 0) && !(t.op == 0x0A)

/-! ### The checks in the order of their codes (Table 9.5) -/

/-- A weight-stage buffer of a core. -/
def Core.wb (k : Core) (b : Nat) : WBuf := if b = 0 then k.wbuf0 else k.wbuf1

/-- A weight-stage buffer replaced. -/
def Core.setWb (k : Core) (b : Nat) (w : WBuf) : Core := if b = 0 then { k with wbuf0 := w } else { k with wbuf1 := w }

/-- Is core `c` locked? -/
def State.locked (s : State) (c : Nat) : Bool := s.bitAt (Reg.tcCfg c) 0

/-- The weights that the buffer loaded last holds when a tile of phase 1 comes to phase 2: address and partition. A tile in phase 2, or ahead of it, loads its own first. -/
def Core.lastWeights (k : Core) : Option (Nat × Nat) :=
  let loads := fun (o : Option Tile) => match o with
    | some x => if x.wSrc = 0 ∨ x.wSrc = 3 then some (x.wAddr, x.part) else none
    | none => none
  let held := match k.lastBuf with
    | some b => some ((k.wb b).addr, (k.wb b).part)
    | none => none
  (loads k.wait1).orElse (fun _ => (loads k.prep).orElse (fun _ => held))

/-- W_REUSE: the buffer loaded last holds other weights, or another partition's. -/
def State.reuseBad (s : State) (c : Nat) (t : Tile) : Bool :=
  decide (t.wSrc = 1) && (match (s.core c).lastWeights with
    | none => true
    | some w => decide (w.1 ≠ t.wAddr) || decide (w.2 ≠ t.part))

/-- The neighbour that a halo link writes, and the bank there (R151). -/
def haloTo (c : Nat) (fwd : Bool) : Nat × Nat := if fwd then ((c + 1) % 8, 14) else ((c + 7) % 8, 15)

/-- HALO_FENCE: rows past the bank, or a bank of another partition. -/
def State.haloBad (s : State) (c : Nat) (t : Tile) (fwd : Bool) : Bool :=
  let dest := haloTo c fwd
  decide (0x40000 < 32 * t.outCb * max 1 t.outW * t.haloRows) || !((s.scratchMask t.part dest.1).testBit dest.2)

/-- The conditions of Table 9.5, each with its code, in order. -/
def State.issueChecks (s : State) (c : Nat) (t : Tile) : List (Nat × Bool) :=
  let k := s.core c
  let sync := fun (off : Nat) => let n := t.f off 0 16; decide (n ≠ noSync) && !(s.inSyncRange t.part n)
  let est := k.chainEst + t.est
  [(0x01, decide (t.kind = 3) || decide (t.fmt = 3) || (decide (t.kind = 1) && decide (t.fmt ≠ 1)) || decide (t.segs = 0) || decide (64 < t.segs)),
   (0x02, decide ((t.f 8 4 1 == 1) ≠ s.classS t.part) || decide ((t.f 8 4 1 == 1) ≠ s.locked c)),
   (0x03, !t.opOk || !t.opSuits),
   (0x04, t.onArrays && (decide (t.mCount = 0) || decide (t.kCount = 0))),
   (0x05, t.onArrays && (decide (t.kFirst % t.kStep ≠ 0)
      || (decide ((t.kFirst + t.kCount) % t.kStep ≠ 0) && decide (16 * ceilDiv (t.kFirst + t.kCount) 16 ≠ t.opK)))),
   (0x06, t.onArrays && (decide (t.arrays = 0) || (List.range 4).any (fun a => t.arrays.testBit a && decide (s.arrayState c a ≠ 2)))),
   (0x07, t.accBad),
   (0x08, decide (4096 < t.wLines) || (t.onArrays && (decide (229376 < t.codeBytes) || decide (8192 < t.paramCount) || decide (t.wSrc = 2)))),
   (0x09, s.reuseBad c t),
   (0x0A, t.banks.any (fun b => !((s.scratchMask t.part c).testBit b) || decide (15 < b))),
   (0x0B, t.banks.any (fun b => decide (s.bankState c b = 0))),
   (0x0C, t.dramRanges.any (fun r => !(s.inWindow t.part r.1 r.2))),
   (0x0D, sync 112 || sync 114 || sync 124 || sync 6),
   (0x0E, (t.f 9 4 1 == 1 && s.haloBad c t true) || (t.f 9 5 1 == 1 && s.haloBad c t false)),
   (0x0F, s.locked c && (t.f 9 4 1 == 1 || t.f 9 5 1 == 1)),
   (0x10, t.windowOutside),
   (0x11, decide (t.f 104 0 64 ≠ 0) && decide (t.sampleRows = 0)),
   (0x12, decide (t.est = 0) || decide (4000 < t.est) || decide (4000 < est)),
   (0x13, match k.chainOpen with | some p => decide (p ≠ t.part) | none => false)]

/-- The code of the first check that fails; none passes (R211). -/
def State.issueCode (s : State) (c : Nat) (t : Tile) : Option Nat :=
  ((s.issueChecks c t).find? (fun x => x.2)).map (fun x => x.1)

end Sys2Proof.Machine
end

