-- ==== Sys2Proof/Machine/TensorCore.lean ====
section
/-!
DEFINITION. The sequencer: the life of a tile, the escapement, the failed-tile rule, the halo ring (R147 to R153, R210, R213, R220 to R224).
-/
namespace Sys2Proof.Machine

/-! ### What TC_STATUS shows -/

/-- Halves claimed now: by tiles in phases 2 to 4 and by a spectral group between its tiles. -/
def Core.claimed (k : Core) : Nat :=
  let of_ := fun (o : Option Tile) => match o with | some t => t.claim | none => 0
  let prep := match k.prep with | some t => if t.met then t.claim else 0 | none => 0
  prep ||| of_ k.beats ||| of_ k.vec ||| k.groupClaim

/-- TC_STATUS of a core from its phases (Table 6.10). -/
def State.showCore (s : State) (c : Nat) : State :=
  let k := s.core c
  let busy := k.wait1.isSome || k.prep.isSome || k.beats.isSome || k.vec.isSome || !k.closing.isEmpty
  let part := match k.beats with | some t => t.part | none => 0
  s.wr (Reg.tcStatus c) (b2n busy + b2n (k.beats.any (fun t => !t.drained)) <<< 1 + b2n k.vec.isSome <<< 2 + part <<< 3
    + k.fifo.length <<< 7 + k.wbuf0.st <<< 12 + k.wbuf1.st <<< 14 + k.claimed <<< 16)

/-- A core changed, and TC_STATUS with it. -/
def State.updCore (s : State) (c : Nat) (f : Core → Core) : State := (s.setCore c (f (s.core c))).showCore c

/-! ### Moving on -/

/-- A tile that drained moves to a free vector engine; a prepared tile takes the arrays, or, when vector-only, the engine, in issue order (R146 to R148). -/
def Core.advance (k0 : Core) (now : Nat) : Core :=
  let k := match k0.vec, k0.beats with
    | none, some t => if t.drained then { k0 with vec := some t, beats := none } else k0
    | _, _ => k0
  match k.prep with
  | none => k
  | some t =>
    if !t.met then k
    else if k.beats.isSome then k
    else if !t.onArrays then
      if t.ready && k.vec.isNone then { k with prep := none, vec := some { t with tbRun := now }, chainRun := t.chain } else k
    else if t.ready then
      let k1 := { k with prep := none, beats := some { t with tbRun := now }, chainRun := t.chain }
      match t.wbuf with
      | some b => k1.setWb b { k1.wb b with st := 3 }
      | none => k1
    else { k with prep := some { t with could := some (t.could.getD now) } }

/-- The threshold that a wait forms from the object's value at entry to phase 2 (R210). -/
def waitThreshold (v0 t : Nat) : Nat :=
  let x : Int := ((v0 / 2 ^ 32 * 2 ^ 32 + t : Nat) : Int)
  let v : Int := (v0 : Nat)
  let y := if v + 2 ^ 31 < x then x - 2 ^ 32 else x
  (if y ≤ v - 2 ^ 31 then y + 2 ^ 32 else y).toNat

/-- A tile as it enters phase 2 (R210). -/
def State.toPhase2 (s : State) (t : Tile) : Tile :=
  { t with
    tb2 := s.now,
    thrA := waitThreshold (s.syncVal (t.f 112 0 16)) (t.f 116 0 32),
    thrB := waitThreshold (s.syncVal (t.f 114 0 16)) (t.f 120 0 32) }

/-- The tile that has passed phase 1 enters phase 2 once no other is in it. -/
def State.enterPhase2 (s : State) (c : Nat) : State :=
  match (s.core c).prep, (s.core c).wait1 with
  | none, some t => s.updCore c (fun k => { k with prep := some (s.toPhase2 t), wait1 := none })
  | _, _ => s

/-- A core moved on. -/
def State.advance (s : State) (c : Nat) : State := (s.updCore c (fun k => k.advance s.now)).enterPhase2 c

/-- A tile put among those of phase 5, in issue order (R148). -/
def insertClosing (t : Tile) : List Tile → List Tile
  | [] => [t]
  | x :: l => if t.seq < x.seq then t :: x :: l else x :: insertClosing t l

/-- Phase 4 over: the tile waits to close; its claims end, but for a chained complex tile of a spectral group (R139, R194). -/
def State.toClosing (s : State) (c : Nat) (t : Tile) : State :=
  (s.updCore c (fun k => { k with
    closing := insertClosing t k.closing,
    groupClaim := if t.kind = 1 && t.chain && !t.failed then t.claim else if t.op = 0x0A || t.failed then 0 else k.groupClaim })).advance c

/-! ### Weight-stage buffers -/

/-- The weight buffer that a tile has used goes free, or stays loaded for a tile in phase 2 that reuses it. -/
def Core.releaseBuf (k : Core) (b : Nat) : Core :=
  let keep := match k.prep with | some t => decide (t.wbuf = some b) | none => false
  k.setWb b { k.wb b with st := if keep then 2 else 0 }

/-- A tile of phase 2 goes: the weights loaded for it are discarded, those that it would have reused stay where they are in use (R223). -/
def Core.discard (k : Core) (t : Tile) : Core :=
  match t.wbuf with
  | none => k
  | some b =>
    if k.beats.any (fun x => !x.drained && x.wbuf == some b) then k
    else if t.wSrc = 1 then k.setWb b { k.wb b with st := 0 }
    else { k.setWb b { k.wb b with st := 0, lines := 0 } with lastBuf := if k.lastBuf = some b then none else k.lastBuf }

/-! ### The failed-tile rule (R149) -/

/-- The blocks of the tile's N block that the output tensor holds: 0, 1 or both; a grouped product writes none that is padding alone (R184, R197). -/
def Tile.halves (t : Tile) : List Nat :=
  (List.range 2).filter (fun h => decide (2 * t.nBlock + h < t.outCb) && (!t.grouped || (t.chanOf (16 * h)).isSome))

/-- The writes that a tile's output blocks take: address and block, in the order of rows, then blocks. -/
def Tile.outSlots (t : Tile) (c : Nat) : List (Nat × Nat × Nat) :=
  (List.range t.mCount).foldl (fun (l : List (Nat × Nat × Nat)) r => match t.row r with
    | none => l
    | some m =>
      if t.holeRow m || t.roiOver m then l
      else l ++ t.halves.map (fun h => (r, h, t.outBlk c m (2 * t.nBlock + h)))) []

/-- A store of a core: its own scratchpad at once; elsewhere, for a locked pair, held by the even core until the verdict and discarded by the odd one (R150). -/
def State.tileStore (s : State) (c : Nat) (x : State × Tile) (a n v : Nat) : State × Tile :=
  let own := decide (memKind a = some 2 ∧ memUnit a = c)
  let t := { x.2 with sig := crc32cRun x.2.sig v n }
  if own || !(s.locked c) then (x.1.wrMemBy (holderName 6 c) (some x.2.part) a n v, t)
  else if c % 2 = 0 then (x.1, { t with hold := t.hold ++ [(a, n, v)] })
  else (x.1, t)

/-- The counters and reports of a failed tile: TC_FAILED_TILES, TC_ERR.tile_failed, in class S a detected fault with cause TILE_FAILED. -/
def State.noteFailed (s : State) (c : Nat) (t : Tile) : State :=
  let s1 := (s.bump (Reg.tcFailedTiles c) 1).tcErr c 7 0 t
  s1.faultIfS t.part { cause := 0x02, subsys := 6, unit := c / 2 }

/-- The base of a tile's output: a device address. -/
def Tile.outBase (t : Tile) (c : Nat) : Nat := if t.outDram && !t.partialOut then t.outAddr else scratchAddr c 0 + t.outAddr % 2 ^ 22

/-- The tiles of the frequency path that a transform tile covers, but for those of holes (R190, R214). -/
def Tile.fRows (t : Tile) : List Nat := ((List.range t.mCount).map (fun r => t.mFirst + r)).filter (fun k => !t.holeRow k)

/-- The positions of tile `k` that lie inside the output, as rows and columns of the tile (R190). -/
def Tile.fInside (t : Tile) (k : Nat) : List (Nat × Nat) :=
  let per := max 1 (t.facts.ty * t.facts.tx)
  let w := max 1 t.outW
  (List.range t.vh).flatMap (fun r =>
    if t.sampleRows ≤ (t.vh * (k % per / max 1 t.facts.tx) + r) * w then []
    else ((List.range t.vw).filter (fun q => decide (t.vw * (k % max 1 t.facts.tx) + q < w))).map (fun q => (r, q)))

/-- The logical output row of position (r, q) of tile `k`. -/
def Tile.fRow (t : Tile) (k r q : Nat) : Nat :=
  let per := max 1 (t.facts.ty * t.facts.tx)
  k / per * t.sampleRows + (t.vh * (k % per / max 1 t.facts.tx) + r) * max 1 t.outW + t.vw * (k % max 1 t.facts.tx) + q

/-- The blocks that a tile writes, in order: SE12 blocks of an epilogue or a vector-only operator, or of the transforms' planes; a complex tile, partial sums, column spectra and candidates are no blocks. -/
def Tile.blockSlots (t : Tile) (c : Nat) : List Nat :=
  if t.kind = 1 || t.partialOut then []
  else match t.op with
    | 0x08 => t.fRows.flatMap (fun k => ((List.range 2).filter (fun h => decide (2 * t.nBlock + h < t.inCb))).flatMap (fun h =>
        (List.range (3 * 544)).map (fun i => t.outBase c + t.planeAt (i / 544) (i % 544) k (2 * t.nBlock + h))))
    | 0x0A => []
    | 0x0B => t.fRows.flatMap (fun k => (t.fInside k).flatMap (fun p => t.halves.map (fun h => t.outBlk c (t.fRow k p.1 p.2) (2 * t.nBlock + h))))
    | 0x1A => []
    | _ => (t.outSlots c).map (fun e => e.2.2)

/-- The FP32 values that a tile leaves for the next one, by address and bytes: partial sums, row-major over rows and 32 columns (R215), or entries of the column-spectrum buffer (R195). -/
def Tile.fpSlots (t : Tile) (c : Nat) : List (Nat × Nat) :=
  if t.kind = 0 && t.partialOut then
    (List.range t.mCount).flatMap (fun r => match t.row r with
      | none => []
      | some m => if t.holeRow m then [] else (List.range 32).map (fun n => (t.outBase c + 4 * (32 * r + n), 4)))
  else if t.op = 0x0A then
    t.fRows.flatMap (fun k => ((List.range 32).filter (fun n => decide (32 * t.nBlock + n < t.facts.cout))).flatMap (fun n =>
      (List.range t.vh).map (fun r => (t.colAddr (t.outBase c) k (32 * t.nBlock + n) r t.facts.bin, 8))))
  else []

/-- An FP32 value stored for the next tile, with its flags beside it (R176). -/
def State.fpStore (s : State) (c : Nat) (x : State × Tile) (a n v fl : Nat) : State × Tile :=
  let w := s.tileStore c x a n v
  ({ w.1 with pln := { w.1.pln with spec := Tab.write (fun _ => 0) w.1.pln.spec a fl } }, w.2)

/-- The output rows that a tile sends on a link: forward its last halo_rows rows, backward its first (R203). -/
def Tile.haloRowsOf (t : Tile) (fwd : Bool) : List Nat :=
  let w := max 1 t.outW
  let first := t.mFirst / w
  let last := (t.mFirst + (max 1 t.mCount - 1)) / w
  let n := min t.haloRows (last - first + 1)
  (List.range n).map (fun i => if fwd then last + 1 - n + i else first + i)

/-- The writes of a tile on one link: each block to its place in the receiving bank, rows from its start (log entry 25); rows of holes are not written. -/
def State.haloOf (s : State) (c : Nat) (t : Tile) (fwd : Bool) : List HaloBlk :=
  let w := max 1 t.outW
  let rows := t.haloRowsOf fwd
  let l := ((List.range rows.length).zip rows).flatMap (fun (e : Nat × Nat) =>
    ((List.range w).filter (fun x => !t.holeRow (e.2 * w + x))).flatMap (fun x =>
      t.halves.map (fun h =>
        let cb := 2 * t.nBlock + h
        ({ fwd := fwd, off := 32 * (t.outCb * (w * e.1 + x) + cb), blk := s.rdMem (t.outBlk c (e.2 * w + x) cb) 32, part := t.part,
           sync := t.f 6 0 16, ident := t.ident, last := false, counted := t.failed } : HaloBlk))))
  match l.reverse with
  | [] => []
  | h :: rest => (({ h with last := true }) :: rest).reverse

/-- The tile's halo rows go on the links that it names; a link that has nothing to carry signals at once, so that the neighbour does not wait for ever (log entry 25). -/
def State.sendHalo (s : State) (c : Nat) (t : Tile) : State :=
  [(4, true), (5, false)].foldl (fun (x : State) (e : Nat × Bool) =>
    if t.f 9 e.1 1 = 1 then
      match x.haloOf c t e.2 with
      | [] => x.signal (t.f 6 0 16) 1
      | l => x.updCore c (fun k => { k with halo := k.halo ++ l })
    else x) s

/-- A tile ends under R149: its blocks not yet written are written poisoned, and the FP32 values that it leaves for another tile are marked so; its halo rows are sent; its claims and buffer go free, its boundary is reached, and it goes to close with its signals. -/
def State.failTile (s : State) (c : Nat) (t : Tile) : State :=
  let k := s.core c
  let k1 := { k with
    prep := if k.prep = some t then none else k.prep,
    beats := if k.beats = some t then none else k.beats,
    vec := if k.vec = some t then none else k.vec }
  let k2 := if k.prep = some t then k1.discard t
    else if (k.beats = some t ∧ t.drained = false) ∨ (k.vec = some t ∧ t.onArrays = false) then (match t.wbuf with | some b => k1.releaseBuf b | none => k1)
    else k1
  let s1 := s.setCore c k2
  let slots := t.blockSlots c
  let r := slots.foldl (fun (x : State × Tile) a => s.tileStore c x a 32 (poisonBlock 0)) (s1, { t with failed := true })
  let r2 := (t.fpSlots c).foldl (fun (x : State × Tile) e => s.fpStore c x e.1 e.2 0 1) r
  let s2 := ((r2.1.bump (Reg.tcPoisonOut c) slots.length).noteFailed c t).sendHalo c r2.2
  (if k.beats = some t then s2.boundary c else s2).toClosing c r2.2

/-! ### Writing a descriptor, reclaim (R147, R223) -/

/-- The owner of a core's present slot; 0xFF unowned. -/
def State.slotNowOwner (s : State) (c : Nat) : Nat := s.slotOwner c (s.core c).slotNow

/-- Which tiles a reclaim for `owner` leaves, in issue order: the owner's own, and those that follow a running chain without a grant (R194, R223). -/
def keepMarks (owner : Nat) : Bool → List Tile → List Bool
  | _, [] => []
  | chained, t :: l => (chained || decide (t.part = owner)) :: keepMarks owner (chained && t.chain) l

/-- A reclaim: every descriptor of another partition that has not entered phase 3 is withdrawn to its planner, which then holds it ready; a chain that runs goes on (R194, R223). -/
def State.reclaim (s : State) (c owner : Nat) : State :=
  let k := s.core c
  let all := k.prep.toList ++ k.wait1.toList ++ k.fifo
  let marks := keepMarks owner k.chainRun all
  let later := marks.drop k.prep.toList.length
  let keep2 := k.prep.isNone || marks.headD true
  let keep1 := k.wait1.isNone || later.headD true
  let out := (all.zip marks).filterMap (fun e => if e.2 then none else some e.1)
  let lastKept := if k.wait1.isSome then keep1 else keep2
  let k1 := match k.prep with | some t => if keep2 then k else k.discard t | none => k
  let s1 := (s.updCore c (fun _ => { k1 with
    prep := if keep2 then k.prep else none, wait1 := if keep1 then k.wait1 else none,
    fifo := ((k.fifo.zip (later.drop k.wait1.toList.length)).filter (fun e => e.2)).map (fun e => e.1),
    chainOpen := if lastKept then k.chainOpen else none, chainEst := if lastKept then k.chainEst else 0,
    holder := some owner, ready := out.foldl (fun m t => m ||| 2 ^ t.part) k.ready })).enterPhase2 c
  { s1 with pln := { s1.pln with returned := s1.pln.returned ++ out } }

/-- The batch samples that are holes in a tile's job, as a hole_mask (R227). -/
def State.batchHoles (s : State) (t : Tile) : Nat :=
  match s.jobOf t.part t.job with
  | none => 0
  | some j => ((List.range j.units.length).zip j.units).foldl (fun m (e : Nat × PUnit) => if e.2.hole then m ||| 2 ^ e.1 else m) 0

/-- A descriptor with the holes of its job's batch in hole_mask: a sample that becomes a hole stands in every later tile (R227); without rows per sample the field stays. -/
def State.withHoles (s : State) (t : Tile) : Tile :=
  if t.sampleRows = 0 then t else { t with desc := t.desc ||| (BitVec.ofNat 1024 (s.batchHoles t % 2 ^ 64 <<< 832)) }

/-- The budget of a class S partition on a core in units of est, per cycle (R303); on a pair that stood by, the largest that it has (R309); none where the image declares none. -/
def State.budgetOn (s : State) (c p : Nat) : Option Nat :=
  if !(s.classS p) then none
  else
    let b := (List.range 4).map (fun k => s.partFld p (32 + 2 * k) 0 16)
    let here := (b[c / 2]?).getD 0
    let n := if here = 0 then b.foldl max 0 else here
    if n = 0 then none else some (100 * n)

/-- The tile time written for a partition in the present cycle. -/
def State.spentOn (s : State) (c p : Nat) : Nat :=
  let e := Tab.read (fun _ => (0, 0)) (s.core c).spent p
  if e.1 = s.now / 1000000 then e.2 else 0

/-- Does a tile of a class S partition exceed its budget in this cycle? It waits at the planner for the next (R303). -/
def State.overBudget (s : State) (c : Nat) (t : Tile) : Bool :=
  match s.budgetOn c t.part with
  | some b => decide (b < s.spentOn c t.part + t.est)
  | none => false

/-- The time of a tile counted against its partition's budget. -/
def State.spend (s : State) (c : Nat) (t : Tile) : State :=
  if (s.budgetOn c t.part).isSome then
    s.updCore c (fun k => { k with spent := Tab.write (fun _ => (0, 0)) k.spent t.part (s.now / 1000000, s.spentOn c t.part + t.est) })
  else s

/-- TILE_DESCRIPTOR_WRITE (R147): a whole descriptor enters a FIFO with room, and the planner no longer holds it ready, unless it exceeds the budget of its class S partition (R303); the owner of the slot reclaims the core from a borrower (R223). -/
def State.writeTile (s : State) (c pair : Nat) (d : Desc128) (f : LayerFacts) : State :=
  let k := s.core c
  let t := s.withHoles { desc := d, facts := f, pair := pair }
  if 16 ≤ k.fifo.length ∨ 8 ≤ c ∨ s.overBudget c t = true then s
  else
    let s := s.spend c t
    let s0 := { s with pln := { s.pln with returned := s.pln.returned.filter (fun x => decide (x.ident ≠ t.ident)) } }
    let s1 := s0.updCore c (fun k => { k with fifo := k.fifo ++ [t], ready := k.ready &&& (65535 - 2 ^ t.part) })
    if s.slotNowOwner c = t.part ∧ (match k.holder with | some h => decide (h ≠ t.part) | none => false) = true then s1.reclaim c t.part
    else s1

/-! ### The escapement (R221, R222) -/

/-- The state of a core pair in SAF_PAIR_STATE: 0 unlocked, 1 locked, 2 standby, 3 suspect. -/
def State.pairState (s : State) (k : Nat) : Nat := s.fld Reg.safPairState (4 * k) 2

/-- May partition `p` be granted on core `c` at all: the pair is not suspect, no class S tile in the safe state, and no class F tile in a slot that reefing has withdrawn (R308, R319, R39)? -/
def State.mayGrant (s : State) (c p : Nat) : Bool :=
  decide (s.pairState (c / 2) ≠ 3) && (s.classS p || !(s.slotWithdrawn c (s.core c).slotNow)) && !(s.classS p && s.bitAt Reg.safStatus 2) && s.processing p

/-- Has a partition work on a core: a descriptor in the FIFO, or a ready tile at the planner? -/
def Core.hasWork (k : Core) (p : Nat) : Bool := k.fifo.any (fun t => decide (t.part = p)) || k.ready.testBit p

/-- Does a partition hold slots on a core? -/
def State.holdsSlots (s : State) (c p : Nat) : Bool := decide (0 < countSlots (s.slotOwner c) p)

/-- The place of a partition in the lending order: class S first, then class F by rank (R222). -/
def State.lendRank (s : State) (p : Nat) : Nat := if s.classS p then 16 else s.rank p

/-- Partitions that hold slots on a core and have work, of the highest lending order. -/
def State.lendees (s : State) (c : Nat) : List Nat :=
  let l := (List.range 16).filter (fun p => s.holdsSlots c p && (s.core c).hasWork p && s.mayGrant c p)
  let top := l.foldl (fun m p => max m (s.lendRank p)) 0
  l.filter (fun p => decide (s.lendRank p = top))

/-- The next lendee in round robin after the last one served. -/
def nextAfter (l : List Nat) (last : Nat) : Option Nat :=
  match l.find? (fun p => decide (last < p)) with
  | some p => some p
  | none => l.head?

/-- Is the slot idle: unowned, or its owner has no work on the core (R222)? -/
def State.slotIdle (s : State) (c : Nat) : Bool :=
  let o := s.slotNowOwner c
  decide (o = 0xFF) || !((s.core c).hasWork o) || !(s.mayGrant c o)

/-- One core at a slot start: the owner with work reclaims the core from the last occupant; an idle slot is lent (R222, R223). -/
def State.startSlot (s : State) (c i ready : Nat) : State :=
  let s1 := s.updCore c (fun k => { k with slotNow := i, ready := ready })
  if s1.slotIdle c then
    match nextAfter (s1.lendees c) (s1.core c).lendRr with
    | some p => s1.updCore c (fun k => { k with holder := some p, lendRr := p })
    | none => s1.updCore c (fun k => { k with holder := none })
  else
    let o := s1.slotNowOwner c
    if (s.core c).holder = some o ∨ (s.core c).holder = none then s1.updCore c (fun k => { k with holder := some o })
    else s1.reclaim c o

/-- ESCAPEMENT_SLOT_START (R221): slot i = (TB mod 1 ms) / 50 µs begins on every core; `ready` gives, per core, the partitions for which the planner holds a ready tile. -/
def State.escapement (s : State) (ready : List Nat) : State :=
  let i := s.now % 1000000 / 50000
  loopUp 8 (fun c x => x.startSlot c i ((ready[c]?).getD 0)) s

/-- Is a partition granted on a core now (R222)? -/
def State.isGranted (s : State) (c p : Nat) : Bool :=
  s.mayGrant c p && (decide (s.slotNowOwner c = p)
    || (s.slotIdle c && (s.lendees c).contains p
      && (match (s.core c).holder with | some h => decide (h = p) || !((s.lendees c).contains h) | none => true)))

/-! ### Phase 1 (R211) -/

/-- TILE_ISSUE (R211): the head descriptor, granted or following a chain, enters phase 1 once the tile before it has left it; it passes, and enters phase 2 once no other tile is in it, or is rejected and removed. -/
def State.tileIssue (s : State) (c : Nat) : State :=
  let k := s.core c
  match k.fifo with
  | [] => s
  | t :: rest =>
    if k.wait1.isSome || !(k.chainOpen.isSome || s.isGranted c t.part) then s
    else
      match s.issueCode c t with
      | some code =>
        let s1 := s.updCore c (fun k => { k with fifo := rest, chainOpen := none, chainEst := 0 })
        let s2 := { s1 with pln := { s1.pln with rejects := s1.pln.rejects ++ [({ pair := t.pair, core := c, code := code, tile := t } : Reject)] } }
        s2.plnErr 0 t.part c code t.ident
      | none =>
        (s.updCore c (fun k => { k with
          fifo := rest, wait1 := some { t with seq := k.nextSeq }, nextSeq := k.nextSeq + 1,
          chainOpen := if t.chain then some t.part else none,
          chainEst := if t.chain then k.chainEst + t.est else 0,
          holder := some t.part })).enterPhase2 c

/-! ### Phase 2 (R147, R210) -/

/-- Are a tile's waits met? -/
def State.tileWaits (s : State) (t : Tile) : Bool := s.waitMet (t.f 112 0 16) t.thrA && s.waitMet (t.f 114 0 16) t.thrB

/-- Are the halves that a tile claims free? Tiles of one spectral group share theirs. -/
def Core.claimFree (k : Core) (t : Tile) : Bool :=
  let same := fun (x : Tile) => x.chain && x.kind == 1 && decide (x.part = t.part) && decide (x.claim = t.claim)
  let of_ := fun (o : Option Tile) => match o with | some x => if same x then 0 else x.claim | none => 0
  let grp := if k.groupClaim = t.claim && (t.kind == 1 || t.op == 0x0A) then 0 else k.groupClaim
  decide (t.claim &&& (of_ k.beats ||| of_ k.vec ||| grp) = 0)

/-- A free weight-stage buffer. -/
def Core.freeBuf (k : Core) : Option Nat := if k.wbuf0.st = 0 then some 0 else if k.wbuf1.st = 0 then some 1 else none

/-- The scratchpad banks in retention that a tile touches wake (R35, BANK_OFF). -/
def State.wakeBanks (s : State) (c : Nat) (t : Tile) : State :=
  (t.banks.filter (fun b => decide (s.bankState c b = 1))).foldl (fun x b => x.pdRequest (64 + 16 * c + b) 2) s

/-- Operand B of MATMUL_RT quantised into the tile's scratchpad area (R186). -/
def State.prepareB (s : State) (c : Nat) (t : Tile) : State × Tab Nat :=
  let s1 := t.bReads.foldl (fun (x : State) a => x.noteInput c t a) s
  let r := s1.quantB t (scratchAddr c 0 + t.wAddr % 2 ^ 22) s1
  (r.1.bump64 (Reg.tcVecSteps c) (2 * t.kPad * 32 * t.segN / 64), r.2)

/-- The tile's buffer starts to load from DRAM or from the scratchpad. -/
def State.startLoad (s : State) (c : Nat) (t : Tile) (b : Nat) : State :=
  let r := if t.wSrc = 3 then s.prepareB c t else (s, [])
  r.1.updCore c (fun k => ({ k with prep := some { t with met := true, wbuf := some b } }).setWb b
    { st := 1, src := t.wSrc, addr := t.wAddr, lines := t.wLines, part := t.part, marks := r.2 })

/-- TILE_WAITS_MET (R147, R210): with both waits met, its banks awake and its halves free, the tile claims them and its weights start to load, are reused, or are not needed. -/
def State.waitsMet (s : State) (c : Nat) : State :=
  match (s.core c).prep with
  | none => s
  | some t =>
    if t.met || !(s.tileWaits t) || !((s.core c).claimFree t) then s
    else if t.banks.any (fun b => decide (s.bankState c b ≠ 2)) then s.wakeBanks c t
    else if t.wSrc = 1 then
      (s.updCore c (fun k =>
        let k1 := { k with prep := some { t with met := true, ready := true, wbuf := k.lastBuf } }
        match k.lastBuf with
        | some b => k1.setWb b { k1.wb b with st := max 2 (k1.wb b).st }
        | none => k1)).advance c
    else if t.wSrc = 2 then (s.updCore c (fun k => { k with prep := some { t with met := true, ready := true } })).advance c
    else
      match (s.core c).freeBuf with
      | none => s
      | some b => (s.startLoad c t b).advance c

/-- Bytes `n` at a time copied into the stage, a word that reads uncorrectable marked so (Table 12.3). -/
def State.copyWords (s : State) (src dst : Nat) : Nat → State
  | 0 => s
  | n + 1 =>
    let s1 := State.copyWords s src dst n
    let bad := s.uncorr (src + 8 * n) 8
    let s2 := s1.wrMem (dst + 8 * n) 8 (s.rdMem (src + 8 * n) 8)
    if bad then { s2 with ecc := Tab.write (fun _ => 0) s2.ecc ((dst + 8 * n) / 8) 3 } else s2

/-- The stage filled from a weight area of `len` bytes: the codes and parameters of each segment and set to their two parts of the buffer (R134, log entry 22). -/
def State.fillStage (s : State) (t : Tile) (src stage len : Nat) : State :=
  let ch := t.chunk
  loopUp (t.segN * t.sets) (fun i x =>
    let a := i * (ch.1 + ch.2)
    (x.copyWords (src + a) (stage + i * ch.1) (min ch.1 (len - a) / 8)).copyWords (src + a + ch.1) (stage + 0x38000 + i * ch.2) (min ch.2 (len - (a + ch.1)) / 8)) s

/-- WEIGHT_LOAD_DONE (R136): the loading buffer is filled, and its tile's beats may start; the wait is added to TC_STALL_WEIGHT_NS. -/
def State.loadDone (s : State) (c b : Nat) : State :=
  let w := (s.core c).wb b
  if w.st ≠ 1 then s
  else
    match (s.core c).prep with
    | none => s
    | some t =>
      let src := if w.src = 3 then scratchAddr c 0 + w.addr % 2 ^ 22 else w.addr
      let s1 := s.noteRead (holderName 6 c) (some t.part) src (64 * w.lines)
      let s2 := if s.uncorr src (64 * w.lines) then s1.tcErr c 3 0 t else s1
      let s3 := s2.fillStage t src (stageBase c b) (64 * w.lines)
      let s4 := match t.could with
        | some tb => s3.bump64 (Reg.tcStallWeightNs c) (s.now - tb)
        | none => s3
      (s4.updCore c (fun k => ({ k with prep := some { t with ready := true }, lastBuf := some b }).setWb b { w with st := 2 })).advance c

/-! ### Phase 3 (R137, R148) -/

/-- TILE_BEATS_DONE (R148): the tile's last beat drains; the arrays pass to the next tile and to reefing (R153). `stall` is the time that beats waited on feeders. -/
def State.beatsDone (s : State) (c stall : Nat) : State :=
  match (s.core c).beats with
  | none => s
  | some t =>
    if t.drained then s
    else
      let b := t.wbuf.getD 0
      let s1 := (s.runBeats c t ((s.core c).wb b) b).bump64 (Reg.tcStallFeedNs c) stall
      let s2 := s1.updCore c (fun k => let k1 := { k with beats := some { t with drained := true } }; match t.wbuf with | some x => k1.releaseBuf x | none => k1)
      (s2.boundary c).advance c

/-- WAVEFRONT_MISMATCH (R132): a cube finds differing indices; its place is captured and the tile fails. -/
def State.wavefront (s : State) (c a row col : Nat) : State :=
  match (s.core c).beats with
  | none => s
  | some t => if t.drained then s else (s.tcErr c 0 (a % 4 + (row % 8) <<< 2 + (col % 8) <<< 5) t).failTile c t

/-- SEQUENCER_PARITY_ERROR (R149): the tile of phase 2, 3 or 4 fails. -/
def State.seqParity (s : State) (c phase : Nat) : State :=
  let k := s.core c
  let o := match phase with | 2 => k.prep | 3 => k.beats | _ => k.vec
  match o with
  | none => s
  | some t => (s.tcErr c 6 0 t).failTile c t

/-- TILE_WATCHDOG_EXPIRY (R220): a tile in phase 3 or 4 for 4 × est × 10 ns fails, with ERR_PLN.watchdog. -/
def State.watchdog (s : State) (c : Nat) : State :=
  let k := s.core c
  let late := fun (o : Option Tile) => match o with | some t => decide (t.tbRun + 40 * t.est ≤ s.now) | none => false
  let o := if late k.vec then k.vec else if late k.beats then k.beats else none
  match o with
  | none => s
  | some t => (s.plnErr 2 t.part c 0x12 t.ident).failTile c t

/-! ### Phase 4 (R143 to R146) -/

/-- Stores of a list of blocks in order, each 32 bytes, poisoned ones counted. -/
def State.storeBlks (s : State) (c : Nat) (l : List (Nat × Nat)) (x : State × Tile) : State × Tile :=
  l.foldl (fun (y : State × Tile) e =>
    let z := s.tileStore c y e.1 32 e.2
    if blkPoison e.2 then (z.1.bump (Reg.tcPoisonOut c) 1, z.2) else z) x

/-- What an epilogue writes (R143, R215): SE12 blocks in row order, or FP32 partial sums. -/
def State.epilogue (s : State) (c : Nat) (t : Tile) : State × Tile :=
  if t.kind = 1 then (s, t)
  else if t.partialOut then
    (t.fpSlots c).foldl (fun (x : State × Tile) e =>
      let i := (e.1 - t.outBase c) / 4
      let a := t.arrayOf (i / 32)
      let n := t.accEntry (i / 32) (i % 32) 0
      let lost := s.uncorr (accAddr c a n) 4
      s.fpStore c x e.1 4 (s.rdMem (accAddr c a n) 4) (Tab.read (fun _ => 0) (s.core c).flags (65536 * a + n) ||| b2n lost)) (s, t)
  else s.storeBlks c ((t.outSlots c).map (fun e => (e.2.2, (s.epiBlk c t e.1 e.2.1).block))) (s, t)

/-- The accumulator entries that phase 4 of a tile reads: an epilogue's rows, or both regions of the columns that FFT_INV_A transforms (R195). -/
def Tile.accReads (t : Tile) (c : Nat) : List Nat :=
  if t.kind = 0 then
    (List.range t.mCount).flatMap (fun r => match t.row r with
      | none => []
      | some m => if t.holeRow m then [] else (List.range 32).map (fun n => accAddr c (t.arrayOf r) (t.accEntry r n 0)))
  else if t.op = 0x0A then
    t.fRows.flatMap (fun k => (List.range 32).flatMap (fun n => (List.range 64).map (fun j =>
      let e := t.specEntry (j % 32) (k - t.mFirst) n (j / 32)
      accAddr c e.1 e.2)))
  else []

/-- Words that a unit of the core reads in error: each counted and reported, then the core's own event (Tables 6.8, 12.3). -/
def State.noteWords (s : State) (c : Nat) (t : Tile) (bit n : Nat) (addrs : List Nat) : State :=
  match addrs.filter (fun a => s.uncorr a n) with
  | [] => s
  | bad => (bad.foldl (fun (x : State) a => x.noteRead (holderName 6 c) (some t.part) a n) s).tcErr c bit 0 t

/-- The accumulator errors that the vector engine meets (Table 6.8): TC_ERR.acc_uncorr. -/
def State.noteAcc (s : State) (c : Nat) (t : Tile) : State := s.noteWords c t 4 4 (t.accReads c)

/-- What a plain vector-only operator gives each of its output blocks. -/
def State.vecOuts (s : State) (c : Nat) (t : Tile) : List (Nat × OutBlk) :=
  let base := stageBase c (t.wbuf.getD 0)
  (t.outSlots c).map (fun e => (e.2.2, s.vecBlk c t base ((t.row e.1).getD 0) (2 * t.nBlock + e.2.1)))

/-- The stores of FFT_FWD: the three planes of every tile that is no hole (R193, R214). -/
def State.fwdStores (s : State) (c : Nat) (t : Tile) : List (Nat × Nat) :=
  t.fRows.flatMap (fun k => ((List.range 2).filter (fun h => decide (2 * t.nBlock + h < t.inCb))).flatMap (fun h =>
    (s.fftFwd c t k (2 * t.nBlock + h)).map (fun e => (t.outBase c + e.1, e.2))))

/-- The stores of FFT_INV_A: two FP32 values per entry, with their flags (R195). -/
def State.invAStores (s : State) (c : Nat) (t : Tile) : State × Tile :=
  t.fRows.foldl (fun (x : State × Tile) k =>
    ((List.range 32).filter (fun n => decide (32 * t.nBlock + n < t.facts.cout))).foldl (fun (y : State × Tile) n =>
      let fl := b2n (s.specFlag c t k n 0) + 2 * b2n (s.specFlag c t k n 1)
      (s.fftInvA c t k n).foldl (fun (z : State × Tile) e => s.fpStore c z (t.outBase c + e.1) 8 (e.2.1 + e.2.2 <<< 32) fl) y) x) (s, t)

/-- The blocks of FFT_INV_B: for each tile the positions inside the output, bias and activation applied (R195); every block of a column with a poisoned entry is poisoned (Table 7.6). -/
def State.invBBlks (s : State) (c : Nat) (t : Tile) : List (Nat × Nat) :=
  t.fRows.flatMap (fun k =>
    let fl := t.halves.map (fun h => (List.range 2).map (fun b => (List.range 16).any (fun i =>
      (t.chanOf (16 * h + i)).isSome && s.colFlag t k (32 * t.nBlock + 16 * h + i) b)))
    let inside := t.fInside k
    ((inside.map (fun p => p.1)).eraseDups).flatMap (fun r =>
      let rows := (List.range 32).map (fun i => if (t.chanOf i).isSome then s.fftInvB t k (32 * t.nBlock + i) r else [])
      (inside.filter (fun p => decide (p.1 = r))).flatMap (fun p => (t.halves.zip fl).map (fun e =>
        let vals := (List.range 16).map (fun i => match t.chanOf (16 * e.1 + i) with
          | none => 0
          | some ch => t.finish ch ((((rows[16 * e.1 + i]?).getD [])[p.2]?).getD 0))
        (t.outBlk c (t.fRow k r p.2) (2 * t.nBlock + e.1),
          OutBlk.block { vals := vals, poison := (e.2[0]?).getD false, concealed := (e.2[1]?).getD false })))))

/-! ### BOX_DECODE (R200, R229) -/

/-- The candidates of one position and anchor, classes ascending: 32 bytes each (Table 10.1). -/
def State.candidates (s : State) (c : Nat) (t : Tile) (smp p a : Nat) : List Nat :=
  let blks := s.posBlks c t smp p
  let per := 4 + t.aux1
  let ch := fun (i : Nat) => ((blks[(a * per + i) / 16]?).getD {}).val ((a * per + i) % 16)
  let fl := seenFlags ((List.range per).map (fun i => (blks[(a * per + i) / 16]?).getD {}))
  let w := max 1 t.inW
  let an := fun (k : Nat) => fp16to32 (t.facts.aux.le (8 * (p * max 1 t.aux0 + a) + 2 * k) 2)
  let centre := fun (pos step : Nat) => fpMul (fpAdd (fpOfInt (pos : Nat)) fpHalf) step
  let box : Nat × Nat × Nat × Nat :=
    if t.sub = 0 then
      let bw := fpMul (an 2) (vecExp (ch 2))
      let bh := fpMul (an 3) (vecExp (ch 3))
      (fpSub (fpAdd (an 0) (fpMul (ch 0) (an 2))) (fpMul bw fpHalf), fpSub (fpAdd (an 1) (fpMul (ch 1) (an 3))) (fpMul bh fpHalf), bw, bh)
    else
      let x0 := fpSub (centre (p % w) t.p1) (fpMul (ch 0) t.p1)
      let x1 := fpAdd (centre (p % w) t.p1) (fpMul (ch 2) t.p1)
      let y0 := fpSub (centre (p / w) t.p1) (fpMul (ch 1) t.p1)
      let y1 := fpAdd (centre (p / w) t.p1) (fpMul (ch 3) t.p1)
      (x0, y0, fpSub x1 x0, fpSub y1 y0)
  ((List.range t.aux1).filter (fun k => fpLe t.p0 (fpAct 0 (ch (4 + k))))).map (fun k =>
    box.1 + box.2.1 <<< 32 + box.2.2.1 <<< 64 + box.2.2.2 <<< 96 + (fpAct 0 (ch (4 + k))) <<< 128
      + (k % 65536) <<< 160 + (a % 256) <<< 176 + (b2n fl.1 + 2 * b2n fl.2) <<< 184 + (p % 2 ^ 32) <<< 192)

/-- The candidates written so far of a sample. -/
def State.candCount (s : State) (t : Tile) (smp : Nat) : Nat :=
  match s.jobOf t.part t.job with
  | some j => Tab.read (fun _ => 0) j.cands smp
  | none => 0

/-- The candidates of one position appended to its sample's buffer; past 8,192 they are dropped and counted. -/
def State.putCands (s0 : State) (c : Nat) (t : Tile) (m : Nat) (x : State × Tile) : State × Tile :=
  let sp := t.place m
  let l := (List.range (max 1 t.aux0)).foldl (fun (l : List Nat) a => l ++ s0.candidates c t sp.1 sp.2 a) []
  let base := (if t.outDram then t.outAddr else scratchAddr c 0 + t.outAddr % 2 ^ 22) + 32 * 8192 * sp.1
  l.foldl (fun (y : State × Tile) v =>
    let n := y.1.candCount t sp.1
    let z := if n < 8192 then s0.tileStore c y (base + 32 * n) 32 v else y
    (z.1.updJob t.part t.job (fun j => { j with cands := Tab.write (fun _ => 0) j.cands sp.1 (n + 1) }), z.2)) x

/-- The candidate entry of a sample, on the stream's candidate queue (R200, Table 10.1). -/
def State.candEntry (s : State) (c : Nat) (t : Tile) (smp : Nat) : State :=
  match s.jobOf t.part t.job with
  | none => s
  | some j =>
    match j.units[smp]? with
    | none => s
    | some u =>
      let n := Tab.read (fun _ => 0) j.cands smp
      let addr := (if t.outDram then t.outAddr else scratchAddr c 0 + t.outAddr % 2 ^ 22) + 32 * 8192 * smp
      (s.updJob t.part t.job (fun x => { x with sent := x.sent ++ [smp], credits := x.credits.erase (s.candsTo u.stream) })).sendCands u (u.hole || t.hole smp) (decide (8192 < n)) addr n
        (if t.facts.emb = 0 then 0 else t.facts.emb + 256 * t.sampleRows * smp) t.facts.embW

/-- A BOX_DECODE tile: candidates in position-major, anchor, class order; the entry of each sample whose last row it holds. -/
def State.boxDecode (s : State) (c : Nat) (t : Tile) : State × Tile :=
  let ms := (List.range t.mCount).filterMap (fun r => t.row r)
  let x := ms.foldl (fun (x : State × Tile) m => if t.holeRow m then x else s.putCands c t m x) (s, t)
  let ends := ms.filter (fun m => decide ((t.place m).2 + 1 = t.sampleRows))
  (ends.foldl (fun (y : State) m => y.candEntry c t (t.place m).1) x.1, x.2)

/-! ### Halo rows, records, steps -/

/-- The steps of an epilogue over `n` outputs (R143). -/
def Tile.epiSteps (t : Tile) (n : Nat) : Nat := ceilDiv n (if t.o 2 0 8 < 4 then 64 else 32)

/-- Steps that a tile takes on the vector engine (R142 to R145, R195): of the 85 steps of FFT_INV_A for a channel-tile, 5 fall to each v (Table 8.4), and FFT_INV_B hands its outputs to the epilogue; none where the manual states no count. -/
def Tile.vecSteps (t : Tile) : Option Nat :=
  if t.kind = 1 then some 0
  else if t.onArrays then some (t.epiSteps (t.mCount * 32))
  else match t.op with
    | 0x10 => some (t.kh * t.kw * ceilDiv (t.mCount * 32) 128)
    | 0x08 => some (320 * t.mCount * 16 * ((List.range 2).filter (fun h => decide (2 * t.nBlock + h < t.inCb))).length)
    | 0x0A => some (5 * t.mCount * 32)
    | 0x0B => some (235 * t.mCount * 32 + t.epiSteps (32 * ((List.range t.mCount).map (fun r => (t.fInside (t.mFirst + r)).length)).sum))
    | _ => none

/-- The steps counted; a free value where the manual states no count (log entry 4). -/
def State.countSteps (s : State) (c : Nat) (t : Tile) : State :=
  match t.vecSteps with
  | some n => s.bump64 (Reg.tcVecSteps c) n
  | none => let f := s.takeFree 16; f.2.bump64 (Reg.tcVecSteps c) f.1

/-- The record type of an output. -/
def recType (o : OutBody) : Nat :=
  match o with
  | .mark => 0 | .landmarks _ => 0x04 | .scores _ _ => 0x05 | .embedding _ => 0x06 | .event _ _ _ _ _ => 0x07 | .tensorRef _ => 0x0C

/-- FP16 values one after the other. -/
def packHalves (l : List Nat) : Nat := (l.foldl (fun (x : Nat × Nat) v => (x.1 + (v % 65536) <<< x.2, x.2 + 16)) (0, 0)).1

/-- The place of the highest of some FP16 values, the first of equals. -/
def topOf (l : List Nat) : Nat :=
  (l.zipIdx.foldl (fun (b : Nat × Nat) e => if fpLt (fp16to32 b.1) (fp16to32 e.1) then e else b) ((l.head?).getD 0, 0)).2

/-- The body of an output's record (Table 10.6): `model` its handle, `track` that of the sample's region. Values derived from poisoned data are 0; a TENSOR_REF's description of its buffer is not derived from data. -/
def recBody (t : Tile) (model track sample : Nat) (poison : Bool) (o : OutBody) : Blob :=
  let head := track % 2 ^ 32 + (model % 65536) <<< 32
  let v := fun (x : Nat) => if poison then 0 else x
  match o with
  | .mark => Blob.empty
  | .landmarks l => { len := 8 + 4 * l.length, val := head + l.length <<< 48 + v (packHalves (l.flatMap (fun p => [p.1.toNat, p.2.toNat]))) <<< 64 }
  | .scores first l =>
    let x := l.map (fun e => e.toNat)
    { len := 12 + 2 * l.length, val := head + l.length <<< 48 + first.toNat <<< 64 + v ((first.toNat + topOf x) % 65536) <<< 80 + v (packHalves x) <<< 96 }
  | .embedding l =>
    let x := l.map (fun e => e.toNat)
    { len := 12 + 2 * l.length, val := head + l.length <<< 48 + v (l2Norm x) <<< 64 + v (packHalves ((unitNorm x).map fp16Rne)) <<< 96 }
  | .event typ severity start value data =>
    { len := 40, val := typ.toNat + severity.toNat <<< 8 + (model % 65536) <<< 16 + (track % 2 ^ 32) <<< 32 + start.toNat <<< 64
        + v value.toNat <<< 128 + v data.toNat <<< 160 }
  | .tensorRef h =>
    let n := 32 * t.outCb * t.sampleRows
    { len := 29, val := (t.outAddr + n * sample) % 2 ^ 48 + (hPool h.toNat) <<< 48 + (hIdx h.toNat) <<< 64 + n <<< 96
        + (t.sampleRows / max 1 t.outW % 65536) <<< 160 + (t.outW % 65536) <<< 176 + (t.outCb % 65536) <<< 192 + (model % 65536) <<< 208 + (t.layer % 256) <<< 224 }

/-- A TENSOR_REF's buffer goes to host software of partition `p` (R262): shared by a unit that holds it, with host software as last owner; the units then drop it. -/
def State.shareOut (s : State) (p h : Nat) : State :=
  let units := (s.buf (hIdx h)).holders.filter (fun x => !(isHost x))
  match units with
  | [] => s
  | x :: _ =>
    let r := s.share p x h (hostHolder p) (hostHolder p)
    if r.2 = 0 then units.foldl (fun y u => (y.drop p u h).1) r.1 else r.1

/-- A record of a model's output for a sample (R227, R240): none for a hole, or the mark that stands for the frame's last; no TENSOR_REF in class S. -/
def State.outRecord (s0 : State) (c : Nat) (t : Tile) (poison : Bool) (o : OutRec) : State :=
  match s0.jobOf t.part t.job with
  | none => s0
  | some j =>
    match j.units[o.sample]? with
    | none => s0
    | some u =>
      let s := if o.done then s0.updSeqFrame u.seq u.counter (fun f => { f with marked := true }) else s0
      let hole := u.hole || t.hole o.sample
      let typ := recType o.body
      let e := u.entry.toNat
      if typ = 0 || hole || (s.classS t.part && decide (typ = 0x0C)) then (if o.done then s.handFrame u.stream c u.counter u.ts [] else s)
      else
        let s1 := match o.body with | .tensorRef h => s.shareOut t.part h.toNat | _ => s
        s1.handRec c { s1.blankRec u.stream with
          typ := typ, counter := u.counter, ts := u.ts, frameDone := o.done, poisoned := poison,
          concealed := u.concealed, concealedRef := e.testBit 276, roiStale := e.testBit 279,
          body := recBody t j.model (bits e 288 32) o.sample poison o.body }

/-- What phase 4 of a tile writes. -/
def State.runVector (s : State) (c : Nat) (t : Tile) : State × Tile :=
  if t.onArrays then s.epilogue c t
  else match t.op with
    | 0x08 => s.storeBlks c (s.fwdStores c t) (s, t)
    | 0x0A => s.invAStores c t
    | 0x0B => s.storeBlks c (s.invBBlks c t) (s, t)
    | 0x1A => s.boxDecode c t
    | _ => s.storeBlks c ((s.vecOuts c t).map (fun e => (e.1, e.2.block))) (s, t)

/-- The blocks that a vector-only tile reads, whole windows and second inputs among them, for their errors (R140, R179). -/
def State.vecReads (s : State) (c : Nat) (t : Tile) : List Nat :=
  if t.onArrays then []
  else match t.op with
    | 0x08 => (t.fRows.flatMap (fun k => (List.range 2).flatMap (fun h => (s.fSeen c t k (2 * t.nBlock + h)).filterMap (fun v => v.src)))).eraseDups
    | 0x0A => []
    | 0x0B => []
    | 0x1A => ((List.range t.mCount).flatMap (fun r => match t.row r with
        | none => []
        | some m => (s.posBlks c t (t.place m).1 (t.place m).2).filterMap (fun v => v.src))).eraseDups
    | _ => ((s.vecOuts c t).flatMap (fun e => e.2.reads)).eraseDups

/-- The words that a vector-only tile reads beside SE12 blocks: the boxes of ROI_ALIGN, the column spectra of FFT_INV_B, 8 bytes each. -/
def Tile.wordReads (t : Tile) : List Nat :=
  if t.onArrays then []
  else match t.op with
    | 0x19 => ((List.range t.mCount).filterMap (fun r => match t.row r with
        | some m => if t.holeRow m || t.roiOver m then none else some (t.boxAddr (t.place m).1 (t.roiBox (t.place m).2))
        | none => none)).eraseDups
    | 0x0B => t.fRows.flatMap (fun k => ((List.range 32).filter (fun n => (t.chanOf n).isSome)).flatMap (fun n =>
        (List.range (17 * t.vh)).map (fun i => t.colAddr t.facts.in2 k (32 * t.nBlock + n) (i / 17) (i % 17))))
    | _ => []

/-- The errors that phase 4 of a tile meets in what it reads: input blocks, words, accumulator entries, and the weights of the sliding-window path (Tables 6.8, 7.7). -/
def State.notePhase4 (s : State) (c : Nat) (t : Tile) : State :=
  let s1 := (s.vecReads c t).foldl (fun x a => x.noteInput c t a) s
  let s2 := (s1.noteWords c t 2 8 t.wordReads).noteAcc c t
  if t.op = 0x10 ∧ t.onArrays = false then s2.noteWeights c t (stageBase c (t.wbuf.getD 0)) else s2

/-- The boxes beyond 256 in a sample that a ROI_ALIGN tile ignores, counted for its operator once each (R199). -/
def State.countIgnored (s : State) (t : Tile) : State :=
  let n := ((List.range t.mCount).filter (fun r => match t.row r with
    | some m => t.roiOver m && !t.holeRow m && decide ((t.place m).2 % (t.roiBins.1 * t.roiBins.2) = 0)
    | none => false)).length
  if t.nBlock ≠ 0 ∨ n = 0 then s
  else match s.jobOf t.part t.job with
    | none => s
    | some j => { s with pln := { s.pln with models := s.pln.models.map (fun m =>
        if m.part = t.part ∧ m.handle = j.model then { m with ignored := Tab.write (fun _ => 0) m.ignored t.layer (Tab.read (fun _ => 0) m.ignored t.layer + n) } else m) } }

/-- EPILOGUE_DONE (R143 to R146): the vector engine finishes a tile: blocks written with CRC and status, halo rows sent, records handed over, claims released. -/
def State.epilogueDone (s : State) (c : Nat) (outs : List OutRec) : State :=
  match (s.core c).vec with
  | none => s
  | some t =>
    let s0 := s.notePhase4 c t
    let r := (s0.countIgnored t).runVector c t
    let poison := decide (s.rd (Reg.tcPoisonOut c) < r.1.rd (Reg.tcPoisonOut c))
    let s1 := outs.foldl (fun x o => x.outRecord c t poison o) (r.1.countSteps c t)
    let s2 := (s1.sendHalo c t).updCore c (fun k => let k1 := { k with vec := none }; match r.2.wbuf with | some b => if t.onArrays then k1 else k1.releaseBuf b | none => k1)
    s2.toClosing c r.2

/-- The tile of a fenced halo write fails, wherever it is (R149, R151): counted and reported once, in class S with a detected fault; TC_ERR.halo_tag each time. -/
def State.haloFenced (s : State) (c : Nat) (h : HaloBlk) (bank : Nat) : State :=
  let t : Tile := (((s.core c).closing.find? (fun x => decide (x.ident = h.ident))).getD { desc := BitVec.ofNat 1024 h.ident })
  let s1 := s.tcErr c 5 (bank <<< 8) t
  let s2 := if h.counted || t.failed then s1 else s1.noteFailed c t
  s2.updCore c (fun k => { k with
    closing := k.closing.map (fun x => if x.ident = h.ident then { x with failed := true } else x),
    halo := k.halo.map (fun x => if x.ident = h.ident then { x with counted := true } else x) })

/-- HALO_WRITE (R151): the next write on a core's link arrives: stored; or, at a bank of another partition, discarded and its tile failed. The sync object is raised after the last write, of a failed tile too (R149). -/
def State.haloWrite (s : State) (c : Nat) (fwd : Bool) : State :=
  let k := s.core c
  match k.halo.find? (fun h => h.fwd == fwd) with
  | none => s
  | some h =>
    let dest := haloTo c fwd
    let s1 := s.updCore c (fun k => { k with halo := k.halo.erase h })
    let a := scratchAddr dest.1 dest.2 + h.off
    let s2 := if (s.scratchMask h.part dest.1).testBit dest.2 then s1.wrMemBy (holderName 6 c) (some h.part) a 32 h.blk
      else (s1.fenceHit h.part 3 a).haloFenced c h dest.2
    if h.last then s2.signal h.sync 1 else s2

/-! ### Phase 5 (R147, R150, R312) -/

/-- A tile leaves its core: TC_TILES, TC_LAST_TILE, TC_LAST_SIG. -/
def State.leaveCore (s : State) (c : Nat) (t : Tile) : State :=
  (((s.updCore c (fun k => { k with closing := k.closing.drop 1 })).bump64 (Reg.tcTiles c) 1).wr (Reg.tcLastTile c) t.ident).wr
    (Reg.tcLastSig c) (crc32cEnd t.sig)

/-- The signals of a closing tile, and its job's count. -/
def State.tileSignals (s : State) (t : Tile) : State :=
  let sig := t.f 124 0 16
  let amt := t.f 126 0 8
  (s.signal sig amt).tileDone t.part t.job sig amt t.failed t.ident

/-- The writes that a locked pair's even core held. -/
def State.releaseHeld (s : State) (c : Nat) (t : Tile) : State :=
  t.hold.foldl (fun x w => x.wrMemBy (holderName 6 c) (some t.part) w.1 w.2.1 w.2.2) s

/-- The streams and open frames that a tile serves, through its job's batch. -/
def State.tileFrames (s : State) (t : Tile) : List (Nat × Nat) :=
  match s.jobOf t.part t.job with
  | some j => (j.units.map (fun u => (u.stream, u.counter))).eraseDups
  | none => []

/-- Is the window of a pair open: some stream of the disagreement has had fewer than 100 frame starts since (R312)? -/
def State.winOpen (s : State) (k : Nat) : Bool :=
  match Tab.find s.saf.win k with
  | none => false
  | some w => w.2.any (fun e => decide (s.rd (Reg.ingStrmFrames e.1) < e.2 + 100))

/-- A pair's window set: the streams with their frames now; SAF_PAIR_STATE.window counts its disagreements. -/
def State.openWin (s : State) (k : Nat) (sts : List Nat) (n : Nat) : State :=
  let s1 := { s with saf := { s.saf with win := Tab.insert s.saf.win k (s.now, sts.map (fun st => (st, s.rd (Reg.ingStrmFrames st)))) } }
  s1.setFld Reg.safPairState (4 * k + 2) 2 n

/-- A window that has ended reads 0. -/
def State.settleWin (s : State) (k : Nat) : State :=
  if (Tab.find s.saf.win k).isSome && !(s.winOpen k) then
    { s with saf := { s.saf with win := Tab.erase s.saf.win k } }.setFld Reg.safPairState (4 * k + 2) 2 0
  else s

/-- A pair becomes suspect (R308, R312): no grant, arrays and vector engines off; a detected fault with cause PAIR_SUSPECT, dated at the disagreement. -/
def State.pairSuspect (s : State) (k p tb : Nat) : State :=
  let s1 := (s.setFld Reg.safPairState (4 * k) 2 3).raise { idx := 14, unit := k, bit := 2, part := some p, detail := 0x01 }
  let s2 := [2 * k, 2 * k + 1].foldl (fun x c => (loopUp 4 (fun a y => if y.arrayState c a = 2 then y.setPd (4 * c + a) 0 else y) x).setPd (224 + c) 0) s1
  let s3 := s2.fault { cause := 0x01, subsys := 6, unit := k, part := some p }
  { s3 with saf := { s3.saf with reports := s3.saf.reports.map (fun r => if r.cause = 0x01 ∧ r.unit = k then { r with tb := tb } else r) } }

/-- Are a tile's inputs still held: its output has not overwritten its own input region (R312)? -/
def Tile.inputsHeld (t : Tile) : Bool :=
  let i := t.inRegion
  let o := t.outAddr % 2 ^ 22 + t.outRange.1
  (t.outDram && !t.partialOut) || decide (o + t.outRange.2 ≤ i.1) || decide (i.1 + i.2 ≤ o)

/-- A disagreement of a locked pair (R312): the class S frames are withdrawn with cause 1; a first one whose inputs are held is run again ahead of any other descriptor; without its inputs nothing of it is written and the even core signals nothing, and the planner, which then holds the tile as failed, completes the job (R150, log entry 49); a rerun that disagrees, or a further one in the window, makes the pair suspect. -/
def State.disagree (s0 : State) (c : Nat) (t u : Tile) : State :=
  let k := c / 2
  let s := s0.settleWin k
  let fr := s.tileFrames t
  let s1 := fr.foldl (fun x f => if x.stClassS f.1 then x.withdraw f.1 f.2 1 6 k else x) s
  let s2 := s1.raise { idx := 14, unit := k, bit := 0, part := some t.part }
  let drop := fun (x : State) => (x.updCore c (fun q => { q with closing := q.closing.drop 1 })).updCore (c + 1) (fun q => { q with closing := q.closing.drop 1 })
  if t.rerun || s.winOpen k then
    let tb := match Tab.find s.saf.win k with | some w => if t.rerun then w.1 else s.now | none => s.now
    (drop (s2.setFld Reg.safPairState (4 * k + 2) 2 2)).pairSuspect k t.part tb
  else
    let s3 := s2.openWin k (fr.map (fun f => f.1)) 1
    if t.inputsHeld then
      let again := fun (x : Tile) (q : Core) => { q with
        closing := q.closing.drop 1,
        fifo := { desc := x.desc, facts := x.facts, pair := x.pair, rerun := true } :: q.fifo }
      (s3.updCore c (again t)).updCore (c + 1) (again u)
    else
      ((s3.leaveCore c t).leaveCore (c + 1) u).tileDone t.part t.job noSync 0 true t.ident

/-- A rerun that agrees: a transient (R312). -/
def State.transient (s : State) (c : Nat) (t : Tile) : State :=
  if t.rerun then
    let k := c / 2
    let s1 := (s.bump Reg.safTransientCnt 1).raise { idx := 14, unit := k, bit := 1, part := some t.part }
    s1.safRecord t.part 0x62 0 k 0 0 0 none
  else s

/-- Is a tile of phase 5 the oldest that its core holds: has every earlier one closed (Table 6.4)? -/
def Core.oldest (k : Core) (t : Tile) : Bool :=
  [k.prep, k.beats, k.vec].all (fun o => match o with | some x => decide (t.seq < x.seq) | none => true)

/-- TILE_CLOSE (R147, R150): the oldest tile in phase 5 closes with its signals; in a locked pair after both cores have it, when the signatures agree. -/
def State.tileClose (s : State) (c : Nat) : State :=
  if s.locked c then
    let e := c - c % 2
    match (s.core e).closing, (s.core (e + 1)).closing with
    | t :: _, u :: _ =>
      if t.ident ≠ u.ident then s
      else if !((s.core e).oldest t) || !((s.core (e + 1)).oldest u) then s
      else if t.sig = u.sig then
        let s1 := (((s.settleWin (e / 2)).transient e t).releaseHeld e t)
        ((s1.leaveCore e t).leaveCore (e + 1) u).tileSignals { t with failed := t.failed || u.failed }
      else s.disagree e t u
    | _, _ => s
  else
    match (s.core c).closing with
    | [] => s
    | t :: _ => if (s.core c).oldest t then (s.leaveCore c t).tileSignals t else s

end Sys2Proof.Machine
end

