-- ==== Sys2Proof/Machine/Tracker.lean ====
section
/-!
DEFINITION. The trackers (10): descriptor, suppression, association, the Kalman update, lifecycle, ROI prediction, records, and the commands TRACKER_FRAME, TRACKER_COMPARE, TRACKER_STAGE_LIMIT, TRACKER_DESC_WRITE. FP32 steps follow R172 in the order written here (log entry 26).
-/
namespace Sys2Proof.Machine

/-! ### The descriptor (Table 10.2) -/

/-- A field of a stream's tracker descriptor. -/
def State.td (s : State) (st byte lo len : Nat) : Nat := bits (s.rdWords (Reg.trkStrmDesc st) 16) (8 * byte + lo) len

/-- A numeric field with its default for 0. -/
def State.tdOr (s : State) (st byte len dflt : Nat) : Nat :=
  let v := s.td st byte 0 len
  if v = 0 then dflt else v

/-- The FP16 parameters' defaults, in the order of Table 10.2. -/
def trkDefaults : List Nat :=
  [0x3800, 0x2E66, 0x3800, 0x3800, 0x399A, 0x3B33, 0x2A66, 0x2266, 0x2A66, 0x3266, 0x3666, 0x399A]

/-- Parameter `i` of bytes 4 to 27 as FP32: 0 nms_iou, 1 iou_gate, 2 w_iou, 3 w_app, 4 c_max, 5 ema_alpha, 6 q_pos, 7 q_vel, 8 m_pos, 9 roi_margin, 10 refresh_conf, 11 conf_decay. -/
def State.tp (s : State) (st i : Nat) : Nat := fp16to32 (s.tdOr st (4 + 2 * i) 16 ((trkDefaults[i]?).getD 0))

/-- Stream tracked. -/
def State.trkOn (s : State) (st : Nat) : Bool := s.td st 0 0 1 == 1
/-- Class S pair. -/
def State.trkPair (s : State) (st : Nat) : Bool := s.td st 0 1 1 == 1
/-- The tracker that delivers the stream's records: T0 for a pair. -/
def State.trkOf (s : State) (st : Nat) : Nat := if s.trkPair st then 0 else s.td st 0 2 1
/-- n_init, max_age, max_det, bid limit. -/
def State.nInit (s : State) (st : Nat) : Nat := s.tdOr st 1 8 3
/-- Frames a lost track lives. -/
def State.maxAge (s : State) (st : Nat) : Nat := s.tdOr st 2 8 30
/-- Detections kept per frame. -/
def State.maxDet (s : State) (st : Nat) : Nat := s.tdOr st 30 16 300
/-- Bids per assignment problem. -/
def State.bidLimit (s : State) (st : Nat) : Nat := 256 * s.tdOr st 32 16 256
/-- The queue for ROI lists. -/
def State.roiQueue (s : State) (st : Nat) : Nat := s.td st 28 0 14
/-- The candidate queue. -/
def State.candQueue (s : State) (st : Nat) : Nat := s.td st 40 0 14
/-- The view that a class maps to; 0 for none. -/
def State.classView (s : State) (st cls : Nat) : Nat := if cls < 32 then s.td st 48 (2 * cls) 2 else 0

/-- A stream at the trackers. -/
def State.trkS (s : State) (st : Nat) : TrkStream := Tab.read (fun _ => {}) s.trk.strm st

/-- A stream at the trackers changed. -/
def State.updTrk (s : State) (st : Nat) (f : TrkStream → TrkStream) : State :=
  { s with trk := { s.trk with strm := Tab.write (fun _ => {}) s.trk.strm st (f (s.trkS st)) } }

/-- An event of the trackers. -/
def State.trkEvent (s : State) (b st : Nat) : State :=
  s.raise { idx := 9, unit := s.trkOf st, bit := b, part := some (s.stPart st), aux := st }

/-- A tracker STREAM_STATUS record (Table 10.7). -/
def State.trkStatus (s : State) (st kind counter ts count cls : Nat) : Rec :=
  { s.blankRec st with typ := 0x09, kind := kind, counter := counter, ts := ts, body := { len := 40, val := kind + (count % 2 ^ 32) <<< 32 + cls <<< 64 } }

/-! ### Boxes -/

/-- A box in picture pixels: top-left corner and size, FP32. -/
structure Box where
  x : Nat
  y : Nat
  w : Nat
  h : Nat
  deriving DecidableEq, Repr

/-- The intersection over union of two boxes. -/
def iou (a b : Box) : Nat :=
  let iw := fpMax 0 (fpSub (fpMin (fpAdd a.x a.w) (fpAdd b.x b.w)) (fpMax a.x b.x))
  let ih := fpMax 0 (fpSub (fpMin (fpAdd a.y a.h) (fpAdd b.y b.h)) (fpMax a.y b.y))
  let inter := fpMul iw ih
  if fpZero inter then 0 else fpDiv inter (fpSub (fpAdd (fpMul a.w a.h) (fpMul b.w b.h)) inter)

/-- A canvas point as a picture point (R229): pads, flips, rotation and scaling of the view undone, and the source window added. -/
def State.toPicture (s : State) (st v : Nat) (win : Region) (x y : Nat) : Nat × Nat :=
  let w := fpOfInt (s.vw st v 12 0 16)
  let h := fpOfInt (s.vw st v 14 0 16)
  let x0 := fpSub x (fpOfInt (s.vw st v 20 0 16))
  let y0 := fpSub y (fpOfInt (s.vw st v 22 0 16))
  let x1 := if s.vw st v 0 4 1 = 1 then fpSub w x0 else x0
  let y1 := if s.vw st v 0 5 1 = 1 then fpSub h y0 else y0
  let o := match s.vwRot st v with
    | 1 => (y1, fpSub w x1)
    | 2 => (fpSub w x1, fpSub h y1)
    | 3 => (fpSub h y1, x1)
    | _ => (x1, y1)
  (fpAdd (fpOfInt win.x) (fpMul o.1 (fpDiv (fpOfInt win.w) (fpOfInt (s.vwPreW st v)))),
   fpAdd (fpOfInt win.y) (fpMul o.2 (fpDiv (fpOfInt win.h) (fpOfInt (s.vwPreH st v)))))

/-- A canvas box as a picture box. -/
def State.boxToPicture (s : State) (st v : Nat) (win : Region) (b : Box) : Box :=
  let p := s.toPicture st v win b.x b.y
  let q := s.toPicture st v win (fpAdd b.x b.w) (fpAdd b.y b.h)
  let x := fpMin p.1 q.1
  let y := fpMin p.2 q.2
  { x := x, y := y, w := fpSub (fpMax p.1 q.1) x, h := fpSub (fpMax p.2 q.2) y }

/-! ### Candidates and suppression (R229, R230, R234) -/

/-- A candidate of the frame, and later a detection. -/
structure Det where
  box : Box
  score : Nat
  cls : Nat
  view : Nat
  sample : Nat
  index : Nat
  concealed : Bool := false
  poisoned : Bool := false
  emb : List Nat := []
  deriving DecidableEq, Repr

/-- The appearance at a position of an embedding tensor of 128 channels; none where it cannot be read (R233, Table 12.3). -/
def State.appearance (s : State) (classS : Bool) (emb pos : Nat) : List Nat :=
  if emb = 0 then []
  else
    let blks := (List.range 8).map (fun i => s.seeBlk classS (emb + 256 * pos + 32 * i))
    if blks.any (fun b => b.poison) then []
    else unitNorm (blks.foldl (fun (l : List Nat) b => l ++ (List.range 16).map (fun c => b.val c)) [])

/-- The candidates of one entry (Table 10.1). -/
def State.entryCands (s : State) (st : Nat) (e : Nat) : List Det :=
  let v := bits e 16 2
  let win : Region := { x := bits e 256 16, y := bits e 272 16, w := bits e 288 16, h := bits e 304 16, view := v }
  if bit e 25 || bit e 27 then []
  else (List.range (bits e 176 16)).map (fun i =>
    let a := bits e 128 48 + 32 * i
    let c := s.rdMem a 32
    { box := s.boxToPicture st v win { x := bits c 0 32, y := bits c 32 32, w := bits c 64 32, h := bits c 96 32 }
      score := bits c 128 32, cls := bits c 160 10, view := v, sample := bits e 18 6, index := i
      concealed := bit c 185, poisoned := bit c 184 || s.uncorr a 32
      emb := s.appearance (s.stClassS st) (bits e 192 48) (bits c 192 32) })

/-- The words in error that a tracker meets in an entry's candidates and their embeddings are counted and reported (R278, R279). -/
def State.noteEntry (s : State) (st : Nat) (e : Nat) : State :=
  let req := holderName 9 (s.trkOf st)
  let p := some (s.stPart st)
  let a := bits e 128 48
  let emb := bits e 192 48
  if bit e 25 || bit e 27 then s
  else
    let s1 := s.noteRead req p a (32 * bits e 176 16)
    if emb = 0 then s1
    else (List.range (bits e 176 16)).foldl (fun x i => x.noteRead req p (emb + 256 * bits (s.rdMem (a + 32 * i) 32) 192 32) 256) s1

/-- Does `a` come before `b`: higher score, then lower sample, then lower index (R234)? -/
def Det.before (a b : Det) : Bool :=
  fpLt b.score a.score || (!(fpLt a.score b.score) && (decide (a.sample < b.sample) || (decide (a.sample = b.sample) && decide (a.index < b.index))))

/-- A candidate put in its place. -/
def insertDet (d : Det) : List Det → List Det
  | [] => [d]
  | x :: t => if d.before x then d :: x :: t else x :: insertDet d t

/-- Suppression per class: a candidate is kept when its IoU with every kept one of its class is at most the limit (R234). -/
def suppress (thr : Nat) (l : List Det) : List Det :=
  l.foldl (fun (kept : List Det) d =>
    if kept.all (fun k => decide (k.cls ≠ d.cls) || fpLe (iou k.box d.box) thr) then kept ++ [d] else kept) []

/-- The classes of a list, ascending, each with its number of members. -/
def classCounts (l : List Nat) : List (Nat × Nat) :=
  ((List.range 1024).filter (fun c => l.contains c)).map (fun c => (c, (l.filter (fun x => decide (x = c))).length))

/-! ### The Kalman filter (R233) -/

/-- A matrix from its elements. -/
def mat (n m : Nat) (f : Nat → Nat → Nat) : List (List Nat) := (List.range n).map (fun i => (List.range m).map (fun j => f i j))

/-- An element of a matrix. -/
def at2 (a : List (List Nat)) (i j : Nat) : Nat := (((a[i]?).getD [])[j]?).getD 0

/-- An element of a vector. -/
def at1 (a : List Nat) (i : Nat) : Nat := (a[i]?).getD 0

/-- `v` less the products of two lists' first `n` places. -/
def subDot (v : Nat) (a b : List Nat) (n : Nat) : Nat := (List.range n).foldl (fun acc k => fpSub acc (fpMul (at1 a k) (at1 b k))) v

/-- Row `i` of the Cholesky factor, from the rows before it. -/
def cholRow (a : List (List Nat)) (rows : List (List Nat)) (i : Nat) : List Nat :=
  (List.range (i + 1)).foldl (fun (r : List Nat) j =>
    if j = i then r ++ [fpSqrt (subDot (at2 a i i) r r i)]
    else
      let lj := (rows[j]?).getD []
      r ++ [fpDiv (subDot (at2 a i j) r lj j) (at1 lj j)]) []

/-- The Cholesky factor of a 4 × 4 matrix. -/
def cholesky (a : List (List Nat)) : List (List Nat) := (List.range 4).foldl (fun (rows : List (List Nat)) i => rows ++ [cholRow a rows i]) []

/-- The solution of L Lᵀ x = b for a 4 × 4 factor. -/
def cholSolve (l : List (List Nat)) (b : List Nat) : List Nat :=
  let y := (List.range 4).foldl (fun (y : List Nat) i =>
    let li := (l[i]?).getD []
    y ++ [fpDiv (subDot (at1 b i) li y i) (at1 li i)]) []
  [3, 2, 1, 0].foldl (fun (x : List Nat) i =>
    let col := (List.range (3 - i)).map (fun k => at2 l (i + 1 + k) i)
    fpDiv (subDot (at1 y i) col x (3 - i)) (at2 l i i) :: x) []

/-- A number of ns as FP32 seconds. -/
def secs (ns : Int) : Nat := fpDiv (fpOfInt ns) (fpOfInt 1000000000)

/-- A track predicted to a time (R233): constant velocity, P = F P Fᵀ + Q. -/
def State.predict (s : State) (st ts : Nat) (t : Track) : Track :=
  let dt := secs (dist64 ts t.tb)
  let sp := fpMul (s.tp st 6) (at1 t.x 3)
  let sv := fpMul (s.tp st 7) (at1 t.x 3)
  let r := fpDiv dt (secs (s.stPeriod st))
  let fp := mat 8 8 (fun i j => if i < 4 then fpAdd (at2 t.p i j) (fpMul dt (at2 t.p (i + 4) j)) else at2 t.p i j)
  let fpf := mat 8 8 (fun i j => if j < 4 then fpAdd (at2 fp i j) (fpMul dt (at2 fp i (j + 4))) else at2 fp i j)
  let q := fun (i : Nat) => let v := if i < 4 then sp else sv; fpMul (fpMul v v) r
  { t with
    x := (List.range 8).map (fun i => if i < 4 then fpAdd (at1 t.x i) (fpMul dt (at1 t.x (i + 4))) else at1 t.x i)
    p := mat 8 8 (fun i j => if i = j then fpAdd (at2 fpf i j) (q i) else at2 fpf i j)
    tb := ts }

/-- The box of a state vector. -/
def Track.box (t : Track) : Box :=
  { x := fpSub (at1 t.x 0) (fpMul (at1 t.x 2) 0x3F000000), y := fpSub (at1 t.x 1) (fpMul (at1 t.x 3) 0x3F000000), w := at1 t.x 2, h := at1 t.x 3 }

/-- The measurement of a detection: centre and size. -/
def Det.z (d : Det) : List Nat :=
  [fpAdd d.box.x (fpMul d.box.w 0x3F000000), fpAdd d.box.y (fpMul d.box.h 0x3F000000), d.box.w, d.box.h]

/-- A track updated by its detection (R233). -/
def State.kalman (s : State) (st : Nat) (t : Track) (z : List Nat) : Track :=
  let sm := fpMul (s.tp st 8) (at1 t.x 3)
  let sMat := mat 4 4 (fun i j => if i = j then fpAdd (at2 t.p i j) (fpMul sm sm) else at2 t.p i j)
  let l := cholesky sMat
  let k := (List.range 8).map (fun i => cholSolve l ((List.range 4).map (fun j => at2 t.p i j)))
  let y := (List.range 4).map (fun i => fpSub (at1 z i) (at1 t.x i))
  let p1 := mat 8 8 (fun i j => subDot (at2 t.p i j) ((k[i]?).getD []) ((List.range 4).map (fun m => at2 t.p m j)) 4)
  { t with
    x := (List.range 8).map (fun i => (List.range 4).foldl (fun a m => fpAdd a (fpMul (at2 k i m) (at1 y m))) (at1 t.x i))
    p := mat 8 8 (fun i j => fpMul 0x3F000000 (fpAdd (at2 p1 i j) (at2 p1 j i))) }

/-- A new track's state (R233). -/
def State.newTrack (s : State) (st ts id slot : Nat) (d : Det) : Track :=
  let h := d.box.h
  let a := fpMul 0x40000000 (fpMul (s.tp st 8) h)
  let b := fpMul 0x41200000 (fpMul (s.tp st 7) h)
  { id := id, cls := d.cls, slot := slot, conf := d.score, x := d.z ++ [0, 0, 0, 0]
    p := mat 8 8 (fun i j => if i = j then (if i < 4 then fpMul a a else fpMul b b) else 0), tb := ts, emb := d.emb
    state := if s.nInit st ≤ 1 then 1 else 0 }

/-- A track's appearance after a hit (R233). -/
def State.blend (s : State) (st : Nat) (e d : List Nat) : List Nat :=
  if d.isEmpty then e
  else if e.isEmpty then d
  else
    let al := s.tp st 5
    unitNorm ((List.range 128).map (fun i => fpAdd (fpMul al (at1 e i)) (fpMul (fpSub 0x3F800000 al) (at1 d i))))

/-! ### Association (R235, R236) -/

/-- The cost of a pair; none when it is forbidden (R235). -/
def State.pairCost (s : State) (st : Nat) (t : Track) (d : Det) : Option Nat :=
  let o := iou t.box d.box
  let miss := fpSub 0x3F800000 o
  let c := if t.emb.isEmpty || d.emb.isEmpty then miss
    else
      let cosv := (List.range 128).foldl (fun a i => fpAdd a (fpMul (at1 t.emb i) (at1 d.emb i))) 0
      fpAdd (fpMul (s.tp st 2) miss) (fpMul (s.tp st 3) (fpSub 0x3F800000 cosv))
  if fpLt o (s.tp st 1) || fpLt (s.tp st 4) c then none else some c

/-- The floor of an FP32 number that is not negative. -/
def fpFloor (a : Nat) : Nat := if fpSign a then 0 else if fpNaN a then 0 else (fpDy a).m.toNat * 2 ^ (fpDy a).e.toNat / 2 ^ (-(fpDy a).e).toNat

/-- An auction under way: per detection its price and holder, per track its choice (none: unassigned; some none: unmatched). -/
structure Auction where
  price : List Int
  holder : List (Option Nat)
  pick : List (Option (Option Nat))
  bids : Nat := 0
  bounded : Bool := false
  deriving DecidableEq, Repr

/-- Best detection, its value and the second-best value of a track's options; the unmatched option has value 0. Ties go to the lower detection, and to a detection before unmatched (log entry 27). -/
def bestTwo (ben : List (Option Nat)) (price : List Int) : Option Nat × Int × Int :=
  let opts := ben.zipIdx.filterMap (fun e => e.1.map (fun b => (e.2, (b : Int) - (price[e.2]?).getD 0)))
  let step := fun (a : Option (Nat × Int) × Int) (o : Nat × Int) =>
    match a.1 with
    | none => (some o, a.2)
    | some b => if b.2 < o.2 then (some o, max a.2 b.2) else (some b, max a.2 o.2)
  let r := opts.foldl step (none, (0 : Int))
  match r.1 with
  | none => (none, 0, 0)
  | some b => if b.2 < 0 then (none, 0, b.2) else (some b.1, b.2, r.2)

/-- One turn of the inner loop for track `i`. -/
def Auction.turn (a : Auction) (ben : List (List (Option Nat))) (eps : Int) (i : Nat) : Auction :=
  let b := bestTwo ((ben[i]?).getD []) a.price
  match b.1 with
  | none => { a with pick := a.pick.set i (some none) }
  | some d =>
    let pick1 := match (a.holder[d]?).getD none with
      | some old => a.pick.set old none
      | none => a.pick
    { a with
      price := a.price.set d ((a.price[d]?).getD 0 + (b.2.1 - b.2.2) + eps)
      holder := a.holder.set d (some i), pick := pick1.set i (some (some d)), bids := a.bids + 1 }

/-- The inner loop: unassigned tracks in ascending slot order, until none is left or the bid limit is reached. -/
def Auction.phase (ben : List (List (Option Nat))) (eps : Int) (limit : Nat) : Nat → Auction → Auction
  | 0, a => a
  | n + 1, a =>
    match a.pick.findIdx? (fun x => x.isNone) with
    | none => a
    | some i =>
      let a1 := a.turn ben eps i
      if limit ≤ a1.bids then { a1 with bounded := true } else Auction.phase ben eps limit n a1

/-- The outer loop over ε. -/
def Auction.run (ben : List (List (Option Nat))) (limit : Nat) : Nat → Nat → Auction → Auction
  | 0, _, a => a
  | n + 1, eps, a =>
    let a0 := { a with pick := a.pick.map (fun _ => none), holder := a.holder.map (fun _ => none) }
    let a1 := Auction.phase ben (eps : Int) limit (limit + a.pick.length + 1) a0
    if a1.bounded || decide (eps ≤ 1) then a1 else Auction.run ben limit n (max 1 (eps / 8)) a1

/-- The greedy end of a bounded auction: unassigned tracks and free detections in ascending cost. -/
def greedy (costs : List (Nat × Nat × Nat)) (a : Auction) : Auction :=
  costs.foldl (fun (a : Auction) c =>
    if ((a.pick[c.2.1]?).getD none).isNone && ((a.holder[c.2.2]?).getD none).isNone then
      { a with pick := a.pick.set c.2.1 (some (some c.2.2)), holder := a.holder.set c.2.2 (some c.2.1) }
    else a) a

/-- A pair put in order of cost, then track, then detection. -/
def insertCost (c : Nat × Nat × Nat) : List (Nat × Nat × Nat) → List (Nat × Nat × Nat)
  | [] => [c]
  | x :: t => if fpLt c.1 x.1 then c :: x :: t else x :: insertCost c t

/-- One class's problem solved: matched pairs of places in the two lists, bids, and whether the limit was reached (R236). -/
def State.solve (s : State) (st : Nat) (ts : List Track) (ds : List Det) : List (Nat × Nat) × Nat × Bool :=
  let n := ts.length
  let cm := s.tp st 4
  let cost := ts.map (fun t => ds.map (fun d => s.pairCost st t d))
  let ben := cost.map (fun r => r.map (fun c => c.map (fun v => (fpFloor (fpDiv (fpMul 0x45800000 (fpSub cm v)) cm) + 1) * (n + 1))))
  let a0 : Auction := { price := ds.map (fun _ => 0), holder := ds.map (fun _ => none), pick := ts.map (fun _ => none) }
  let a1 := Auction.run ben (s.bidLimit st) 32 (max 1 (4097 * (n + 1) / 8)) a0
  let flat := (cost.zipIdx.foldl (fun (l : List (Nat × Nat × Nat)) r => l ++ r.1.zipIdx.filterMap (fun c => c.1.map (fun v => (v, r.2, c.2)))) [])
  let a2 := if a1.bounded then greedy (flat.foldl (fun l c => insertCost c l) []) a1 else a1
  (a2.pick.zipIdx.filterMap (fun e => match e.1 with | some (some d) => some (e.2, d) | _ => none), a1.bids, a1.bounded)

/-! ### One frame (R232) -/

/-- What a frame makes of the tracks: the tracks with the detection each was hit by (index in the frame's list), whether each is new, deleted tracks, free detections, bids, classes whose auction was bounded. -/
structure TrkRun where
  tracks : List (Track × Option Nat)
  nextId : Nat
  full : List Nat := []
  bids : Nat := 0
  bounded : List Nat := []
  deriving DecidableEq, Repr

/-- The slots that the tracks of a tracker take, in rising order. -/
def State.slotsOf (s : State) (k : Nat) : List Nat :=
  let used := s.trk.strm.foldl (fun (l : List Nat) e => if s.trkPair e.1 || decide (s.trkOf e.1 = k) then l ++ e.2.tracks.map (fun t => t.slot) else l) []
  (List.range 4096).filter (fun i => used.contains i)

/-- The slots that updates held for a release take (R313). -/
def State.pendSlots (s : State) : List Nat :=
  s.trk.strm.flatMap (fun e => match e.2.pend with | some p => p.tracks.map (fun t => t.slot) | none => [])

/-- The lowest free slot for a stream: of its tracker, or of both for a pair (log entry 10). -/
def State.freeSlot (s : State) (st : Nat) (more : List Nat) : Option Nat :=
  let used := s.pendSlots ++ (if s.trkPair st then s.slotsOf 0 ++ s.slotsOf 1 else s.slotsOf (s.trkOf st))
  (List.range 4096).find? (fun i => !(used.contains i) && !(more.contains i))

/-- The next identifier from `n` on that is not 0 and not in use (R236). -/
def freeId (used : List Nat) : Nat → Nat → Nat
  | 0, n => n
  | k + 1, n => if n = 0 ∨ used.contains n = true then freeId used k ((n + 1) % 2 ^ 32) else n

/-- A track put in its place by slot. -/
def insertSlot (e : Track × Option Nat) : List (Track × Option Nat) → List (Track × Option Nat)
  | [] => [e]
  | x :: l => if e.1.slot < x.1.slot then e :: x :: l else x :: insertSlot e l

/-- Tracks in ascending slot order, in which the auction takes them (R236). -/
def bySlot (l : List (Track × Option Nat)) : List (Track × Option Nat) := l.foldl (fun a e => insertSlot e a) []

/-- One class associated and updated: hits, misses, new tracks (steps 3 and 4). -/
def State.runClass (s : State) (st ts : Nat) (dets : List Det) (cls : Nat) (r : TrkRun) : TrkRun :=
  let mine := bySlot (r.tracks.filter (fun e => decide (e.1.cls = cls) && e.2.isNone))
  let ds := (dets.zipIdx.filter (fun e => decide (e.1.cls = cls))).take 512
  let sol := s.solve st (mine.map (fun e => e.1)) (ds.map (fun e => e.1))
  let hitOf := fun (id : Nat) => (mine.findIdx? (fun e => decide (e.1.id = id))).bind (fun i => (sol.1.find? (fun m => decide (m.1 = i))).bind (fun m => ds[m.2]?))
  let upd := r.tracks.map (fun e =>
    if e.1.cls ≠ cls then e
    else match hitOf e.1.id with
      | some d =>
        let t := s.kalman st e.1 d.1.z
        ({ t with hits := t.hits + 1, misses := 0, conf := d.1.score, emb := s.blend st t.emb d.1.emb, age := t.age + 1 }, some d.2)
      | none => ({ e.1 with hits := 0, misses := e.1.misses + 1, conf := fpMul e.1.conf (s.tp st 11), age := e.1.age + 1 }, none))
  let free := (ds.zipIdx.filter (fun e => !(sol.1.any (fun m => decide (m.2 = e.2))))).map (fun e => e.1)
  let r1 : TrkRun := { r with tracks := upd, bids := r.bids + sol.2.1, bounded := if sol.2.2 then r.bounded ++ [cls] else r.bounded }
  free.foldl (fun (a : TrkRun) d =>
    let ids := a.tracks.map (fun e => e.1.id)
    match s.freeSlot st (a.tracks.map (fun e => e.1.slot)) with
    | some slot =>
      if 512 ≤ a.tracks.length then { a with full := a.full ++ [cls] }
      else
        let id := freeId ids 513 a.nextId
        { a with tracks := a.tracks ++ [(s.newTrack st ts id slot d.1, some d.2)], nextId := freeId (id :: ids) 513 ((id + 1) % 2 ^ 32) }
    | none => { a with full := a.full ++ [cls] }) r1

/-- Is a box wholly outside the picture? -/
def State.outsidePicture (s : State) (st : Nat) (b : Box) : Bool :=
  fpLe (fpAdd b.x b.w) 0 || fpLe (fpAdd b.y b.h) 0 || fpLe (fpOfInt (s.stWidth st)) b.x || fpLe (fpOfInt (s.stHeight st)) b.y

/-- The state after a frame (Table 10.3): 0 tentative, 1 confirmed, 2 lost, 3 deleted. -/
def State.lifeOf (s : State) (st : Nat) (t : Track) (hit : Bool) : Nat :=
  if hit then (if t.state = 0 then (if s.nInit st ≤ t.hits then 1 else 0) else 1)
  else if t.state = 0 then 3
  else if t.state = 2 ∧ (s.maxAge st ≤ t.misses ∨ s.outsidePicture st t.box = true) then 3
  else 2

/-! ### Records (Table 10.6) -/

/-- The model of a view's sequence, for a DETECTION record. -/
def State.viewModel (s : State) (st v : Nat) : Nat :=
  match s.pln.seqs.find? (fun e => seqValid e.2.toNat && decide (seqStream e.2.toNat = st) && decide (seqView e.2.toNat = v)) with
  | some e => seqModel e.2.toNat
  | none => 0

/-- A DETECTION record. -/
def State.detRec (s : State) (st counter ts : Nat) (d : Det) (i track : Nat) : Rec :=
  let v := d.box.x + d.box.y <<< 32 + d.box.w <<< 64 + d.box.h <<< 96 + d.score <<< 128 + d.cls <<< 160
    + (s.viewModel st d.view % 65536) <<< 176 + track <<< 192 + d.view <<< 224 + d.sample <<< 232 + (i % 65536) <<< 240
  { s.blankRec st with typ := 0x02, counter := counter, ts := ts, concealed := d.concealed, body := { len := 32, val := v } }

/-- A TRACK record. -/
def State.trackRec (s : State) (st counter ts : Nat) (t : Track) (state : Nat) (det : Option Nat) (concealed bounded : Bool) : Rec :=
  let b := t.box
  let v := t.id + state <<< 32 + (min t.misses 255) <<< 40 + t.cls <<< 48 + b.x <<< 64 + b.y <<< 96 + b.w <<< 128 + b.h <<< 160
    + (fp16Rne (at1 t.x 4)) <<< 192 + (fp16Rne (at1 t.x 5)) <<< 208 + (fp16Rne (at1 t.x 6)) <<< 224 + (fp16Rne (at1 t.x 7)) <<< 240
    + (fp16Rne t.conf) <<< 256 + (min t.age 65535) <<< 272 + (match det with | some i => i % 65536 | none => 0xFFFF) <<< 288 + (b2n bounded) <<< 304
  { s.blankRec st with typ := 0x03, counter := counter, ts := ts, concealed := concealed, body := { len := 40, val := v } }

/-- A tracker EVENT record, concealed with its detection (R230): severity and value are not stated (log entry 4). -/
def State.trkEventRec (s : State) (st counter ts typ : Nat) (t : Track) (concealed : Bool) : Rec × State :=
  let a := s.takeFree 8
  let b := a.2.takeFree 32
  ({ b.2.blankRec st with typ := 0x07, counter := counter, ts := ts, concealed := concealed, body := { len := 40, val := typ + a.1 <<< 8 + t.id <<< 32 + ts <<< 64 + b.1 <<< 128 } }, b.2)

/-- The records of a track. -/
def State.trackRecs (s : State) (st counter ts : Nat) (old : Option Nat) (t : Track) (now : Nat) (det : Option Nat) (concealed bounded : Bool) : List Rec × State :=
  let changed := decide (old ≠ some now)
  let tr := if s.td st 0 4 1 = 1 || changed || det.isSome then [s.trackRec st counter ts t now det concealed bounded] else []
  let typ := if !changed then 0 else if now = 1 then 0xF0 else if now = 2 then 0xF1 else if now = 3 then 0xF2 else 0
  if s.td st 0 5 1 = 1 && decide (typ ≠ 0) then
    let e := s.trkEventRec st counter ts typ t concealed
    (tr ++ [e.1], e.2)
  else (tr, s)

/-! ### The ROI list (R237) -/

/-- A signed FP32 rounded down and up, held to 0 … 65,535. -/
def pixDown (a : Nat) : Nat := min 65535 (fpFloor a)
/-- Rounded up. -/
def pixUp (a : Nat) : Nat := min 65535 (if fpSign a then 0 else if fpLt (fpOfInt (fpFloor a)) a then fpFloor a + 1 else fpFloor a)

/-- The region of a track: its box predicted one period on, widened, rounded outward (Table 5.6). -/
def State.trkRegion (s : State) (st : Nat) (t : Track) : Nat :=
  let p := secs (s.stPeriod st)
  let c := fun (i : Nat) => fpAdd (at1 t.x i) (fpMul p (at1 t.x (i + 4)))
  let m := fpAdd 0x3F800000 (fpMul 0x40000000 (s.tp st 9))
  let hw := fpMul (fpMul (c 2) m) 0x3F000000
  let hh := fpMul (fpMul (c 3) m) 0x3F000000
  let x0 := pixDown (fpSub (c 0) hw)
  let y0 := pixDown (fpSub (c 1) hh)
  x0 + y0 <<< 16 + (pixUp (fpAdd (c 0) hw) - x0) <<< 32 + (pixUp (fpAdd (c 1) hh) - y0) <<< 48
    + (s.classView st t.cls) <<< 64 + (b2n (decide (t.state = 2))) <<< 72 + t.id <<< 96

/-- Does `a` come before `b` in the list: confirmed first, then higher confidence, then lower identifier? -/
def Track.roiBefore (a b : Track) : Bool :=
  if a.state ≠ b.state then decide (a.state < b.state)
  else fpLt b.conf a.conf || (!(fpLt a.conf b.conf) && decide (a.id < b.id))

/-- A track put in list order. -/
def insertTrack (t : Track) : List Track → List Track
  | [] => [t]
  | x :: l => if t.roiBefore x then t :: x :: l else x :: insertTrack t l

/-- The tracks of the list, each view only up to its samples, 64 in all. -/
def State.roiTracks (s : State) (st : Nat) (ts : List Track) : List Track :=
  let l := (ts.filter (fun t => decide (1 ≤ t.state) && decide (s.classView st t.cls ≠ 0))).foldl (fun l t => insertTrack t l) []
  (l.foldl (fun (a : List Track) t =>
    if (a.filter (fun x => decide (s.classView st x.cls = s.classView st t.cls))).length < s.vwSamples st (s.classView st t.cls) then a ++ [t] else a) []).take 64

/-- The entries of a list: regions in fours. -/
def packRegions : List Nat → List Nat
  | [] => []
  | [a] => [a]
  | [a, b] => [a + b <<< 128]
  | [a, b, c] => [a + b <<< 128 + c <<< 256]
  | a :: b :: c :: d :: t => (a + b <<< 128 + c <<< 256 + d <<< 384) :: packRegions t

/-- The ROI list for the next frame, on the credits reserved before the update (R237, R255, Table 5.5). -/
def State.writeRoi (s : State) (st counter : Nat) (ts : List Track) (becameLost : Bool) : State :=
  let q := s.roiQueue st
  if q = noQueue then s
  else
    let l := s.roiTracks st ts
    let conf := ts.filter (fun t => decide (t.state = 1))
    let refresh := becameLost || conf.isEmpty || conf.any (fun t => fpLt t.conf (s.tp st 10))
    let head := 0x01 + st <<< 8 + l.length <<< 16 + (b2n refresh) <<< 24 + ((counter + 1) % 2 ^ 32) <<< 32 + (s.now % 2 ^ 64) <<< 64
    let es := head :: packRegions (l.map (fun t => s.trkRegion st t))
    es.foldl (fun (x : State) e => x.enqueue q e) s

/-! ### The frame -/

/-- The frame counter of a candidate entry. -/
def candCounter (e : Nat) : Nat := bits e 32 32

/-- The candidate entries that a tracker can see for a stream: those that it holds, and those on the queue. -/
def State.candEntries (s : State) (st : Nat) : List Nat :=
  let q := s.candQueue st
  (s.trkS st).held.map (fun e => e.toNat) ++ (List.range (if s.qEnabled q then s.qHeld q else 0)).map (fun i => s.rdMem (s.qEntry q (s.qC q + i)) 64)

/-- The lowest counter of some entries, modulo 2^32. -/
def lowestCounter : List Nat → Nat
  | [] => 0
  | e :: l => l.foldl (fun c x => if 2 ^ 31 ≤ (candCounter x + 2 ^ 32 - c) % 2 ^ 32 then candCounter x else c) (candCounter e)

/-- An entry that closes the frame of counter `c`. -/
def lastOf (c e : Nat) : Bool := bit e 26 && decide (candCounter e = c)

/-- The entries of a frame among those a tracker can see. -/
def State.frameEntries (s : State) (st c : Nat) : List Nat := (s.candEntries st).filter (fun e => decide (candCounter e = c))

/-- Does a frame run step 1 only: it is withdrawn, or every entry is a hole or suppressed (R232)? -/
def State.trkIdle (s : State) (st c : Nat) (es : List Nat) : Bool :=
  es.all (fun x => bit x 25 || bit x 27) || (s.frames st).any (fun f => decide (f.counter = c) && f.withdrawn)
    || (s.closes st).any (fun f => decide (f.counter = c) && f.withdrawn)

/-- The credits of the ROI queue that an update may need: a header, and an entry for every four regions that the views' samples allow (R18, R237, R255). -/
def State.roiNeeds (s : State) (st : Nat) : Nat :=
  let vs := ([1, 2, 3].filter (fun v => (List.range 32).any (fun c => decide (s.classView st c = v)))).map (fun v => s.vwSamples st v)
  1 + ceilDiv (min 64 vs.sum) 4

/-- The counter of the frame that a tracker may start on a stream: the lowest of the entries, its last entry present, both waits met, and the credits of its ROI list free (R232, R255). -/
def State.trkReady (s : State) (st : Nat) : Option Nat :=
  let t := s.trkS st
  let met := fun (n base inc : Nat) => n == noSync || decide (base + inc ≤ s.syncVal n)
  let es := s.candEntries st
  let c := lowestCounter es
  let room := s.roiQueue st == noQueue || s.trkIdle st c (s.frameEntries st c) || decide (s.roiNeeds st ≤ s.qFree (s.roiQueue st))
  if s.trkOn st && met (s.td st 34 0 16) t.baseA (s.td st 38 0 8) && met (s.td st 36 0 16) t.baseB (s.td st 39 0 8) && es.any (lastOf c) && room then some c
  else none

/-- Is a class S frame of a stream withdrawn? -/
def State.frameWithdrawn (s : State) (st counter : Nat) : Bool :=
  (s.frames st).any (fun f => decide (f.counter = counter) && f.withdrawn) || (s.closes st).any (fun f => decide (f.counter = counter) && f.withdrawn)

/-- Is a class S frame released (R313)? -/
def State.frameReleased (s : State) (st counter : Nat) : Bool :=
  (s.frames st).any (fun f => decide (f.counter = counter) && f.released) || (s.closes st).any (fun f => decide (f.counter = counter) && !f.withdrawn)

/-- The tracks shown in the registers. -/
def State.showTracks (s : State) (st : Nat) : State :=
  s.setFld (Reg.trkStrmTracks st) 0 10 (s.trkS st).tracks.length

/-- An update held back is committed once its frame is released; for a withdrawn frame only the prediction holds; none while the frame is open (R313). -/
def State.settlePend (s : State) (st : Nat) : Option State :=
  match (s.trkS st).pend with
  | none => some s
  | some p =>
    if s.frameReleased st p.counter then
      some (((s.updTrk st (fun t => { t with tracks := p.tracks, pend := none })).wr (Reg.trkStrmNextId st) p.nextId).showTracks st)
    else if s.frameOpen st p.counter && !(s.frameWithdrawn st p.counter) then none
    else some (s.updTrk st (fun t => { t with tracks := t.tracks.map (fun k => s.predict st p.ts k), pend := none }))

/-- The tracks of a stream after a frame, committed at once or held back for a class S frame (R313). -/
def State.putTracks (s : State) (st counter ts : Nat) (l : List Track) (next : Nat) : State :=
  if s.stClassS st then s.updTrk st (fun t => { t with pend := some { counter := counter, ts := ts, tracks := l, nextId := next } })
  else ((s.updTrk st (fun t => { t with tracks := l })).wr (Reg.trkStrmNextId st) next).showTracks st

/-- Sticky bit and records of one kind of report, one record per class. -/
def State.trkReports (s : State) (st kind b counter ts : Nat) (l : List (Nat × Nat)) : List Rec × State :=
  if l.isEmpty then ([], s) else (l.map (fun e => s.trkStatus st kind counter ts e.2 e.1), s.trkEvent b st)

/-- Steps 1 to 6 of a frame with candidates. -/
def State.runFrame2 (s : State) (st counter ts : Nat) (es : List Nat) : State × List Rec :=
  let all := es.foldl (fun (l : List Det) e => l ++ s.entryCands st e) []
  let bad := classCounts ((all.filter (fun d => d.poisoned)).map (fun d => d.cls))
  let good := all.filter (fun d => !d.poisoned)
  let excess := good.drop 8192
  let dets := (suppress (s.tp st 0) ((good.take 8192).foldl (fun l d => insertDet d l) [])).take (s.maxDet st)
  let pred := (s.trkS st).tracks.map (fun t => (s.predict st ts t, (none : Option Nat)))
  let classes := classCounts (pred.map (fun e => e.1.cls) ++ dets.map (fun d => d.cls))
  let run := classes.foldl (fun (r : TrkRun) c => s.runClass st ts dets c.1 r) { tracks := pred, nextId := s.rd (Reg.trkStrmNextId st) }
  let life := run.tracks.map (fun e => (e.1, e.2, s.lifeOf st e.1 e.2.isSome))
  let kept := (life.filter (fun e => decide (e.2.2 ≠ 3))).map (fun e => { e.1 with state := e.2.2 })
  let oldState := fun (id : Nat) => ((s.trkS st).tracks.find? (fun t => decide (t.id = id))).map (fun t => t.state)
  let becameLost := life.any (fun e => decide (e.2.2 = 2) && decide (e.1.state = 1))
  let s1 := ((es.foldl (fun x e => x.noteEntry st e) s).bump (Reg.trkStrmPoison st) (bad.foldl (fun n e => n + e.2) 0)).bump (Reg.trkStrmOverflow st) excess.length
  let a := s1.trkReports st 0x51 0 counter ts bad
  let b := a.2.trkReports st 0x50 1 counter ts (if excess.isEmpty && !(es.any (fun e => bit e 24)) then [] else if excess.isEmpty then [(0, 0)] else classCounts (excess.map (fun d => d.cls)))
  let c := b.2.trkReports st 0x52 2 counter ts (classCounts run.full)
  let d := c.2.trkReports st 0x53 3 counter ts (run.bounded.map (fun k => (k, 1)))
  let dr := if s.td st 0 3 1 = 1 then dets.zipIdx.map (fun e => s.detRec st counter ts e.1 e.2 ((life.find? (fun l => decide (l.2.1 = some e.2))).elim 0 (fun l => l.1.id))) else []
  let tr := life.foldl (fun (x : List Rec × State) e =>
    let conc := match e.2.1 with | some i => ((dets[i]?).map (fun q => q.concealed)).getD false | none => false
    let y := x.2.trackRecs st counter ts (oldState e.1.id) e.1 e.2.2 e.2.1 conc (run.bounded.contains e.1.cls)
    (x.1 ++ y.1, y.2)) ([], d.2)
  let s2 := (tr.2.putTracks st counter ts kept run.nextId).bump64 (Reg.trkBids (s.trkOf st)) run.bids
  let s3 := if s.trkPair st then s2.bump64 (Reg.trkBids 1) run.bids else s2
  let s4 := s3.writeRoi st counter kept becameLost
  let s5 := if !(bad.isEmpty) && s.stClassS st then
      (s4.withdraw st counter 5 9 0).fault { cause := 0x08, subsys := 9, unit := 0, part := some (s.stPart st), stream := some st }
    else s4
  (s5, a.1 ++ b.1 ++ c.1 ++ d.1 ++ dr ++ tr.1)

/-- Busy time and status of a tracker after a frame; the time itself is open within R238 (log entry 4). -/
def State.noteTracker (s : State) (k st : Nat) : State :=
  let f := s.takeFree 32
  let live := (f.2.slotsOf k).length
  (f.2.bump64 (Reg.trkBusyNs k) f.1).wr (Reg.trkStatus k) (st <<< 1 + live <<< 8)

/-- Frames that the tracker pair processes since the last mismatch (R231). -/
def State.countPair (s : State) : State :=
  { s with trk := { s.trk with pairWin := match s.trk.pairWin with | some k => if k < 100 then some (k + 1) else none | none => none } }

/-- Entries of the candidate queue read into the tracker, up to the one that closes frame `c` or as far as they read (Table 12.3). -/
def State.takeEntries (s : State) (st c : Nat) : Nat → State
  | 0 => s
  | n + 1 =>
    if (s.trkS st).held.any (fun e => lastOf c e.toNat) then s
    else match s.readHead (s.candQueue st) with
      | (s1, none) => s1
      | (s1, some e) => State.takeEntries ((s1.dequeue (s.candQueue st)).updTrk st (fun t => { t with held := t.held ++ [BitVec.ofNat 512 e] })) st c n

/-- TRACKER_FRAME (R232): the next frame of a stream whose waits and last candidate entry are met; a frame that loses an entry to an uncorrectable word does not run. -/
def State.trackerFrame (s0 : State) (st : Nat) : State :=
  match s0.settlePend st with
  | none => s0
  | some s =>
    match s.trkReady st with
    | none => s0
    | some counter =>
      let s0 := s.takeEntries st counter (s.qHeld (s.candQueue st))
      let mine := fun (e : Desc64) => decide (candCounter e.toNat = counter)
      let es := ((s0.trkS st).held.filter mine).map (fun e => e.toNat)
      if !(es.any (lastOf counter)) then s0
      else
        let ts := bits ((es.head?).getD 0) 64 64
        let s1 := s0.updTrk st (fun t => { t with held := t.held.filter (fun e => !(mine e)) })
        let s2 := s1.updTrk st (fun t => { t with baseA := t.baseA + s.td st 38 0 8, baseB := t.baseB + s.td st 39 0 8 })
        let idle := s.trkIdle st counter es
        let r := if idle then (s2.putTracks st counter ts ((s2.trkS st).tracks.map (fun t => s2.predict st ts t)) (s2.rd (Reg.trkStrmNextId st)), ([] : List Rec))
          else s2.runFrame2 st counter ts es
        let s3 := (r.1.bump (Reg.trkStrmFrames st) 1).handFrame st (8 + s.trkOf st) counter ts r.2
        let s4 := s3.noteTracker (s.trkOf st) st
        if s.trkPair st then ((s4.noteTracker 1 st).updTrk st (fun t => { t with cmp := some counter })).countPair else s4

/-- TRACKER_COMPARE (R231): the check values of both trackers' records agree or differ. A mismatch withdraws the frame with cause 4; a second within 100 frames of the pair is a detected fault. -/
def State.trackerCompare (s : State) (st : Nat) (agree : Bool) : State :=
  match (s.trkS st).cmp with
  | none => s
  | some counter =>
    let s1 := s.updTrk st (fun t => { t with cmp := none })
    if agree then s1
    else
      let s2 := (s1.trkEvent 4 st).withdraw st counter 4 9 0
      let s3 := { s2 with trk := { s2.trk with pairWin := some 0 } }
      if s.trk.pairWin.isSome then
        (s3.trkEvent 5 st).fault { cause := 0x08, subsys := 9, unit := 0, part := some (s.stPart st), stream := some st }
      else s3

/-- TRACKER_STAGE_LIMIT (R316): a frame of a class S stream that the tracker holds exceeds s_trk_limit_us. -/
def State.trackerLimit (s : State) (st : Nat) : State :=
  if s.stClassS st && (s.trkReady st).isSome then
    (s.raise { idx := 14, unit := 0, bit := 7, part := some (s.stPart st), detail := 0x0F }).fault
      { cause := 0x0F, subsys := 9, unit := s.trkOf st, part := some (s.stPart st), stream := some st }
  else s

/-- TRACKER_DESC_WRITE (R231): a word of a descriptor, ignored with desc_busy while enabled. For a stream of a class S partition pair reads 1; the waits count from the enabling. -/
def State.trkDescWrite (s : State) (st word v : Nat) : State :=
  if s.trkOn st then s.trkEvent 6 st
  else
    let x := if word = 0 then (if s.stClassS st then putBits v 1 1 1 else v) else v
    let s1 := s.wr (Reg.trkStrmDesc st + 4 * word) x
    if word = 0 then s1.updTrk st (fun t => { t with baseA := s1.syncVal (s1.td st 34 0 16), baseB := s1.syncVal (s1.td st 36 0 16) }) else s1

end Sys2Proof.Machine
end

