-- ==== Sys2Proof/Machine/HalPool.lean ====
section
/-!
DEFINITION. The commands of the halyard network and the pool manager (11): SIGNAL, RESET, WATCH_ARM, WATCH_COPY_DONE, QUEUE_DESCRIPTOR_WRITE, DOORBELL_WRITE, RESERVATION, RESERVATION_GRANT, RESERVATION_AGED, SHARE, DROP, FREE, POOL_THRESHOLD_WRITE, POOL_BUF_QUERY_WRITE.
-/
namespace Sys2Proof.Machine

/-! ### Sync objects -/

/-- SIGNAL (R250): by a device unit, or by host software of a function on an object of its partition. -/
def State.hostSignal (s : State) (who : Option Nat) (n amt : Nat) : State :=
  match who with
  | none => s.signal n amt
  | some f => if n = noSync then s else if s.inSyncRange f n then s.signal n amt else s.halErr 2 n (some f)

/-- Does a wait name object `n` (R250): an armed watch, a tile in phase 2, a job, a front end's source or slot wait, an encoder's source wait, a tracker's waits, the line ring's? -/
def State.waitNames (s : State) (n : Nat) : Bool :=
  !(s.armedOn n).isEmpty
    || s.cores.any (fun e => match e.2.prep with
        | some t => !t.met && (decide (t.f 112 0 16 = n) || decide (t.f 114 0 16 = n))
        | none => false)
    || s.pln.jobs.any (fun j => !j.planned && (match j.entry with | some e => decide (bits e.toNat 224 16 = n) | none => false))
    || s.pfe.strm.any (fun e => !e.2.frames.isEmpty && (decide ((if e.1 < 64 then s.rowSync e.1 else s.stStored e.1) = n)
        || (List.range 4).any (fun v => s.vwValid e.1 v && !(s.vwPool e.1 v) && decide (s.vw e.1 v 36 0 16 = n))))
    || s.enc.sess.any (fun e => e.2.pic.isSome && (let st := s.sdStream e.1
        decide ((if st < 64 then s.rowSync st else s.fld (Reg.pfeStrmEnc st) 16 16) = n)))
    || (List.range 96).any (fun st => s.trkOn st && (decide (s.td st 34 0 16 = n) || decide (s.td st 36 0 16 = n)))
    || s.ing.strm.any (fun e => e.2.csi.isSome && decide (s.stReleased e.1 = n))

/-- RESET (R250): a function resets an object of its partition, unless a wait names it. -/
def State.hostReset (s : State) (f n : Nat) : State :=
  if n = noSync then s
  else if !(s.inSyncRange f n) then s.halErr 2 n (some f)
  else if s.waitNames n then s.halErr 0 n (some f)
  else (s.wr64 (Reg.halSyncValue n) 0).bump64 Reg.halOps 1

/-! ### Watches -/

/-- The partition whose range holds a watch. -/
def State.watchPart (s : State) (w : Nat) : Option Nat := (List.range 16).find? (fun p => s.inWatchRange p w)

/-- Does `[a, a+n)` lie within one memory that a partition's fences grant (R252)? -/
def State.grantedRange (s : State) (p a n : Nat) : Bool :=
  let e := a + n - 1
  decide (memKind a = memKind e) && decide (a / 0x1000000 = e / 0x1000000 ∨ memKind a = some 0) &&
    (match memKind a with
    | some 0 => s.inWindow p a n
    | some 1 => (List.range 32).all (fun b => !(decide (bits a 19 5 ≤ b) && decide (b ≤ bits e 19 5)) || (s.streamMask p).testBit b)
    | some 2 => (List.range 16).all (fun b => !(decide (bits a 18 4 ≤ b) && decide (b ≤ bits e 18 4)) || (s.scratchMask p (memUnit a)).testBit b)
    | _ => false)

/-- May a watch be armed (R252)? -/
def State.watchOk (s : State) (p w : Nat) : Bool :=
  s.inSyncRange p (s.wObject w) &&
    (match s.wAction w with
    | 0 => decide (s.wTarget w < if p = 0 then 2048 else 128)
    | 1 => s.inQueueRange p (s.wTarget w) && decide (s.qOwner (s.wTarget w) = p) && decide (s.qType (s.wTarget w) = 2)
        && s.grantedRange p (s.wAddrA w) 64
    | 2 => decide (0 < s.wLength w) && decide (s.wLength w % 64 = 0) && decide (s.wLength w ≤ 0x1000000)
        && s.grantedRange p (if s.wToHost w then s.wAddrA w else s.wAddrB w) (s.wLength w)
        && (decide (s.wDone w = noSync) || s.inSyncRange p (s.wDone w))
    | _ => false)

/-- The bits of each word of a watch that host software writes beside word 0 (Table 11.1, R10). -/
def hostWatchMask (word : Nat) : Nat :=
  match word with
  | 1 => 0xFFFF | 9 => 1 | 12 => 0xFFFF | 10 => 0 | 11 => 0 | 13 => 0 | 14 => 0 | 15 => 0 | _ => 0xFFFFFFFF

/-- A word of a watch written by host software of its partition while it is not armed (R252); the read-only bits stay. -/
def State.watchWrite (s : State) (f w word v : Nat) : State :=
  if s.watchPart w ≠ some f then s.halErr 2 w (some f)
  else if s.wArmed w ∨ word = 10 ∨ word = 11 then s
  else if word = 0 then s.wr (Reg.halWatch w) (putBits (putBits (s.rd (Reg.halWatch w)) 0 18 v) 24 4 f)
  else s.wr (Reg.halWatch w + 4 * word) (v &&& hostWatchMask word)

/-- WATCH_ARM (R252, R253): word 0 written with armed 1. Checked, then armed or refused; a wait already met fires it at once. -/
def State.watchArm (s : State) (f w v : Nat) : State :=
  if s.watchPart w ≠ some f then s.halErr 2 w (some f)
  else if s.wArmed w then s
  else
    let s1 := (s.watchWrite f w 0 v).setFld (Reg.halWatch w) 19 2 0
    if !(s1.watchOk f w) then s1.halErr 4 w (some f)
    else (s1.setFld (Reg.halWatch w) 18 1 1).fireMet [w]

/-- A copy channel halts (R281). -/
def State.haltChannel (s : State) (p a : Nat) : State :=
  (s.setFld Reg.memDmaHalt p 1 1).raise { idx := 7, unit := hostHolder p, bit := 3, part := some p, aux := memIndex a, addr := a }

/-- The end of a watch's COPY: failed where it ended in error, then done_sync (R253). -/
def State.copyEnd (s : State) (w : Nat) (failed : Bool) : State :=
  let s1 := { s with hal := { s.hal with copies := s.hal.copies.filter (fun x => decide (x ≠ w)) } }
  let s2 := if failed then (s1.setFld (Reg.halWatch w) 20 1 1).halErr 6 w (some (s.wPart w)) else s1
  s2.signal (s.wDone w) 1

/-- WATCH_COPY_DONE (R253, R281): the DMA of a watch's COPY ends, with an error completion where not `ok`; `data` is what a host read returned. A halted channel and a function that may not issue DMA hold it. -/
def State.watchCopyDone (s : State) (w : Nat) (ok : Bool) (data : Nat) : State :=
  let p := s.wPart w
  let n := s.wLength w
  if !(s.hal.copies.contains w) || s.bitAt Reg.memDmaHalt p || !(s.canIssue p) then s
  else if s.wToHost w then
    let a := s.wAddrA w
    let s1 := s.noteRead (hostHolder p) (some p) a n
    if s.uncorr a n then (s1.haltChannel p a).copyEnd w true
    else if ok then (s1.hostPost p (s.wAddrB w) n (s.rdMem a n) (s.relaxed p)).copyEnd w false
    else s1.copyEnd w true
  else
    let s1 := s.hostGet p (s.wAddrA w) n
    if ok then (s1.wrMemBy (hostHolder p) (some p) (s.wAddrB w) n data).copyEnd w false else s1.copyEnd w true

/-! ### Queues -/

/-- The bits of each descriptor word that host software of the owner sets (R254): relaxed and memory of word 0, stall_us, base, shadow, vector and thresholds. -/
def hostQueueMask (word : Nat) : Nat :=
  match word with
  | 0 => 0x100008 | 1 => 0xFFFFFFFF | 2 => 0xFFFFFFFF | 3 => 0xFFFFFFFF | 4 => 0xFFFFFFFF | 5 => 0xFFFFFFFF
  | 6 => 0xFFFFFFFF | 7 => 0xFFFF | _ => 0

/-- A queue's enable cleared; a stopped notice ring counts for R318. -/
def State.clearEnable (s : State) (q : Nat) : State :=
  let p := s.qOwner q
  let s1 := s.qDisable q
  if s.noticeRing p = q ∧ s.processing p = true then (s1.noteVerified p).settleFaultN else s1

/-- QUEUE_DESCRIPTOR_WRITE (R254, R255): a word written by a function. The owner clears enable at any time, and writes the rest while it is 0; the PF may enable an internal queue again. -/
def State.queueWrite (s : State) (f q word v : Nat) : State :=
  if s.qAllocated q = false ∨ (if s.qType q = 2 then f ≠ 0 else s.qOwner q ≠ f) then s.halErr 2 q (some f)
  else if s.qType q = 2 then
    if decide (word = 0) && bit v 2 && !(s.qEnabled q) then s.qEnable q else s
  else if s.qEnabled q then
    if word = 0 && !(bit v 2) then s.clearEnable q else s.halErr 7 q (some f)
  else
    let a := Reg.halQueueDesc q + 4 * word
    let m := hostQueueMask word
    let s1 := s.wr a ((s.rd a &&& (0xFFFFFFFF - m)) ||| (v &&& m))
    if word = 0 && bit v 2 then s1.qEnable q else s1

/-- DOORBELL_WRITE (R256). -/
def State.doorbell (s : State) (f q v : Nat) : State :=
  if s.qType q = 2 ∨ s.qOwner q ≠ f ∨ s.qAllocated q = false then s.halErr 2 q (some f)
  else if !(s.qEnabled q) then s.halErr 3 q (some f)
  else if s.qType q = 0 then
    let up := (v + 2 ^ 32 - s.qP q) % 2 ^ 32
    if up = 0 then s
    else if (v + 2 ^ 32 - s.qC q) % 2 ^ 32 ≤ s.qSize q ∧ up ≤ s.qSize q then s.qSetP q (v % 2 ^ 32)
    else s.halErr 3 q (some f)
  else
    let up := (v + 2 ^ 32 - s.qC q) % 2 ^ 32
    if up = 0 then s
    else if up ≤ s.qHeld q then s.qSetC q (v % 2 ^ 32)
    else s.halErr 3 q (some f)

/-! ### Reservations (R261) -/

/-- POOL_STAT's count of waiting reservations, by the waiting list. -/
def State.showWaiting (s : State) (ks : List Nat) : State :=
  ks.foldl (fun (x : State) k => x.wr (Reg.poolStat k + 0xC) (s.pool.waiting.filter (fun w => w.pairs.any (fun p => decide (p.1 = k)))).length) s

/-- RESERVATION (R261): granted whole, else refused for class S, else it waits. -/
def State.reserve (s : State) (tag holder : Nat) (pairs : List (Nat × Nat)) : State :=
  match s.tryReserve tag holder pairs with
  | some (s1, _) => s1
  | none =>
    let s0 := s.bump64 Reg.poolOps 1
    if s.classS tag then s0.refuseS tag holder ((pairs.head?).elim 0 (fun p => p.1))
    else
      let s1 := { s0 with pool := { s0.pool with waiting := s0.pool.waiting ++ [({ tag := tag, holder := holder, pairs := pairs, tb := s.now } : Waiting)] } }
      s1.showWaiting (pairs.map (fun p => p.1))

/-- The buffers of a granted reservation go to the unit that waits: a pushed access unit, a decoder's picture. -/
def State.deliverGrant (s : State) (w : Waiting) (hs : List Nat) : State :=
  match w.push with
  | none => s
  | some st =>
    if w.holder / 16 = 1 then
      match (s.inS st).pushWait, hs with
      | some r, h :: _ => (s.updIn st (fun x => { x with pushWait := none })).pushStart st r h
      | _, _ => s
    else s.grantPicture st hs

/-- The first waiting reservation that can be granted, in arrival order; one behind an aged reservation of its pools cannot. -/
def State.grantFirst (s : State) (before : List Waiting) : List Waiting → Option (State × Waiting × List Nat)
  | [] => none
  | w :: t =>
    let open_ := w.pairs.all (fun p => s.mayReserve w.tag p.1 && !(s.pLevel p.1 2 && !(s.pStrict p.1)) && !(before.any (fun o => o.aged && o.pairs.any (fun x => decide (x.1 = p.1)))))
    match if open_ then s.allocAll w.tag w.holder w.pairs [] else none with
    | some (s1, hs) => some ({ s1 with pool := { s1.pool with waiting := before ++ t } }, w, hs)
    | none => State.grantFirst s (before ++ [w]) t

/-- RESERVATION_GRANT (R261). -/
def State.reservationGrant (s : State) : State :=
  match s.grantFirst [] s.pool.waiting with
  | none => s
  | some (s1, w, hs) => ((s1.bump64 Reg.poolOps 1).showWaiting (w.pairs.map (fun p => p.1))).deliverGrant w hs

/-- RESERVATION_AGED (R261): every reservation that has waited age_us closes its pools to newer ones. -/
def State.reservationAged (s : State) : State :=
  let age := 1000 * clampNat 10 65535 (s.fld Reg.poolCtrl 0 16)
  { s with pool := { s.pool with waiting := s.pool.waiting.map (fun w => if w.tb + age ≤ s.now then { w with aged := true } else w) } }

/-! ### Buffer operations -/

/-- The result of a host operation shown to its function (Table 11.11). -/
def State.hostResult (s : State) (holder code : Nat) : State :=
  if isHost holder then s.wr (Reg.poolHostResult holder) (code + 0x100) else s

/-- DROP (R262), with its code in POOL_HOST_RESULT for host software. -/
def State.dropOp (s : State) (tag holder h : Nat) : State :=
  let r := s.drop (if isHost holder then holder else tag) holder h
  r.1.hostResult holder r.2

/-- FREE (R262). -/
def State.freeOp (s : State) (tag holder h : Nat) : State :=
  let r := s.free (if isHost holder then holder else tag) holder h
  r.1.hostResult holder r.2

/-! ### Pool registers -/

/-- A word of bytes 28 to 39 of a pool descriptor staged by the PF; the vector of bytes 38 and 39 holds at once (R259). -/
def State.poolStage (s : State) (k word v : Nat) : State :=
  let s1 := { s with pool := { s.pool with staged := Tab.insert s.pool.staged (4 * k + (word - 6)) v } }
  if word = 9 then s1.setFld (Reg.poolDesc k + 36) 16 16 (v >>> 16) else s1

/-- The staged or present value of a word. -/
def State.stagedWord (s : State) (k word : Nat) : Nat :=
  match Tab.find s.pool.staged (4 * k + (word - 6)) with
  | some v => v
  | none => s.rd (Reg.poolDesc k + 4 * word)

/-- The order of R258: each threshold at most the count, those not 0 rising. -/
def threshOk (count a b c : Nat) : Bool :=
  decide (a ≤ count) && decide (b ≤ count) && decide (c ≤ count)
    && (decide (a = 0) || decide (b = 0) || decide (a ≤ b)) && (decide (b = 0) || decide (c = 0) || decide (b ≤ c))
    && (decide (a = 0) || decide (c = 0) || decide (a ≤ c))

/-- POOL_THRESHOLD_WRITE (R259): bytes 24 to 27 written, so the set takes effect together or is refused whole. -/
def State.poolThresholds (s : State) (k v : Nat) : State :=
  let b := s.stagedWord k 7
  let c := s.stagedWord k 8
  let h := bits (s.stagedWord k 9) 0 16
  if !(threshOk (s.pCount k) v b c) then s.poolErr 8 0 (mkHandle k 0) 0 (some 0)
  else
    let d := Reg.poolDesc k
    (((((s.wr (d + 24) v).wr (d + 28) b).wr (d + 32) c).setFld (d + 36) 0 16 h)).pLevels k

/-- The 16 bytes of a buffer descriptor (Table 11.4). -/
def Buf.image (b : Buf) : Nat :=
  let hs := (List.range 4).foldl (fun n i => n + ((b.holders[i]?).getD 0xFF) <<< (32 + 8 * i)) 0
  b2n b.allocated + 2 * b2n b.freePending + (b.holders.length % 8) <<< 8 + b.lastOwner <<< 16 + (b.part % 16) <<< 24 + hs + (b.allocTb % 2 ^ 64) <<< 64

/-- The base of a function's POOL_BUF_QUERY, and its step to POOL_BUF_DATA0 (Tables 11.11, 14.4). -/
def queryReg (f : Nat) : Nat × Nat := if f = 0 then (Reg.poolBufQuery, Reg.poolBufData 0) else (vfBase f + 0x4000, vfBase f + 0x4008)

/-- POOL_BUF_QUERY_WRITE (R260): a buffer's descriptor appears, zeros where the handle names none, or none that a VF may see. -/
def State.bufQuery (s : State) (f h : Nat) : State :=
  let r := queryReg f
  let seen := s.handleOk h && (decide (f = 0) || decide (s.pOwner (hPool h) = f) || s.pGrants (hPool h) f)
  (s.wr r.1 h).wrWords r.2 4 (if seen then (s.buf (hIdx h)).image else 0)

end Sys2Proof.Machine
end

