-- ==== Sys2Proof/Machine/Dram.lean ====
section
/-!
DEFINITION. The commands of the memories (12): MEMORY_ACCESS, DMA_STARVE, MEM_DMA_RESUME_WRITE, ALERT_N, DDR_REFRESH, SELF_REFRESH_ENTRY, ZQ_CALIBRATION, SCRUB_START, SCRUB_ABORT, SCRUB_PASS_DONE.
-/
namespace Sys2Proof.Machine

/-! ### Ranks (Table 12.11) -/

/-- The state of a rank in DDR_CH_STATUS: 0 active, 1 self-refresh, 2 maximum power-saving, 3 not present. -/
def State.rankState (s : State) (x r : Nat) : Nat := s.fld (Reg.ddrChStatus x) (2 + 2 * r) 2
/-- The state of a rank set. -/
def State.setRank (s : State) (x r v : Nat) : State := s.setFld (Reg.ddrChStatus x) (2 + 2 * r) 2 v
/-- The state of a channel: 0 off, 1 training, 2 ready, 3 failed. -/
def State.chState (s : State) (x : Nat) : Nat := s.fld (Reg.ddrChStatus x) 0 2

/-- DDR_ZQ's interval in ns. -/
def State.zqNs (s : State) : Nat := 1000000 * clampNat 16 1024 (s.fld Reg.ddrZq 0 16)

/-- A calibration of a rank where its interval has passed (R287). -/
def State.calibrate (s : State) (x r : Nat) : State :=
  if Tab.read (fun _ => 0) s.dram.lastZq (2 * x + r) + s.zqNs ≤ s.now then
    { s with dram := { s.dram with lastZq := Tab.write (fun _ => 0) s.dram.lastZq (2 * x + r) s.now } }
  else s

/-- A request reaches a rank: one in self-refresh exits, and calibrates where an interval has passed (R287). -/
def State.touchRank (s : State) (a : Nat) : State :=
  if memKind a ≠ some 0 then s
  else
    let x := s.chanOf a
    let r := s.hashBit 6 a
    let s1 := { s with dram := { s.dram with lastReq := Tab.write (fun _ => 0) s.dram.lastReq (2 * x + r) s.now } }
    if s.rankState x r = 1 then (s1.setRank x r 0).calibrate x r else s1

/-! ### A reader that meets an uncorrectable word (Table 12.3) -/

/-- A core's event without a tile. -/
def State.coreEvent (s : State) (c b p : Nat) : State :=
  let s1 := if s.rd (Reg.tcErr c) = 0 then s.wr (Reg.tcErrLoc c) (b <<< 12) else s
  s1.raise { idx := 6, unit := c, bit := b, part := some p, detail := s1.rd (Reg.tcErrLoc c) % 65536 }

/-- A trap of a control core: a detected fault of its pair. -/
def State.controlTrap (s : State) (k req p : Nat) : State :=
  (s.raise { idx := 7, unit := req, bit := 6, part := some p }).fault { cause := 0x04, subsys := controlSubsys k, unit := k }

/-- The action of each reader. -/
def State.readerActs (s : State) (q : MemReq) : State :=
  let p := q.part.toNat
  match q.reader with
  | .feeder c => s.coreEvent c.val 2 p
  | .weight c => s.coreEvent c.val 3 p
  | .acc c => s.coreEvent c.val 4 p
  | .tensorLoad d => s.wrMemBy q.holder.toNat (some p) d 32 (poisonBlock 0)
  | .frontEnd st => s.pfeEvent 4 st q.addr
  | .decoder st chk => s.updDec st (fun x => if chk then { x with ueChk := true } else { x with ue := true })
  | .tracker => s
  | .queueEntry n => s.loseEntry n q.addr p
  | .control k => s.controlTrap k.val q.holder.toNat p
  | .copy =>
    match s.hal.copies.find? (fun w => decide (s.wPart w = p)) with
    | some w => (s.haltChannel p q.addr).copyEnd w true
    | none => s.haltChannel p q.addr
  | .scrubber => s
  | .other => s

/-! ### MEMORY_ACCESS (R269, R277 to R281, R294 to R296) -/

/-- May the reader reach memories of a core or control core by address (R269)? The units of the core do, and the scrubber. -/
def innerReader (r : MemReader) : Bool :=
  match r with
  | .weight _ => true | .acc _ => true | .control _ => true | .scrubber => true | _ => false

/-- An access that no memory answers: MEM_ERR.unmapped or DDR_ERR.unmapped, with a log entry; a read is an uncorrectable read (R269). The log type of a write is not stated (log entry 4). -/
def State.unmapped (s : State) (q : MemReq) : State :=
  let p := some q.part.toNat
  let s1 := s.memEvent q.addr 5 6 q.holder.toNat p
  if q.write then
    let f := s1.takeFree 8
    f.2.putLog q.addr (f.2.logEntry q.addr f.1 0xFF q.holder.toNat p)
  else (s1.noteUe q.addr q.holder.toNat p).readerActs q

/-- The kind of a fence hit (SAF_FENCE_LOC): 0 DRAM, 1 scratchpad, 2 stream memory. -/
def fenceKind (a : Nat) : Nat := match memKind a with | some 2 => 1 | some 1 => 2 | _ => 0

/-- The power domain of a memory bank; 253 for a memory without one. -/
def bankDomain (a : Nat) : Nat :=
  match memKind a with
  | some 1 => 192 + bits a 19 5
  | some 2 => 64 + 16 * memUnit a + bits a 18 4
  | some 3 => 32 + 4 * memUnit a + bits a 18 2
  | _ => 253

/-- Is the bank on, or without a domain of its own? -/
def State.bankOn (s : State) (a : Nat) : Bool := decide (bankDomain a = 253) || decide (s.pdState (bankDomain a) = 2)

/-- A request that its fence lets through: the mapped, readable or written memory. -/
def State.doAccess (s : State) (q : MemReq) : State :=
  let p := some q.part.toNat
  let s1 := s.touchRank q.addr
  if q.write then s1.wrMemBy q.holder.toNat p q.addr q.len q.data
  else
    let s2 := s1.noteRead q.holder.toNat p q.addr q.len
    if s.uncorr q.addr q.len then s2.readerActs q else s2

/-- One request (R277): unmapped, fenced, held at or refused by its bank (R35), answered by a channel that has failed with an error, or done. -/
def State.access (s : State) (q : MemReq) : State :=
  let a := q.addr
  let p := q.part.toNat
  let kind := memKind a
  if !(s.mapped a) || !(s.mapped (a + (q.len - 1))) || (decide (kind = some 3 ∨ kind = some 4 ∨ kind = some 5) && !(innerReader q.reader)) then s.unmapped q
  else if q.dma && decide (bankDomain a < 224) && decide (s.pdState (bankDomain a) = 0) then
    let s1 := s.pwtErr 5 0 (bankDomain a)
    if q.write then s1 else s1.readerActs q
  else if q.dma && !(s.bankOn a) then
    let s1 := { s with pwt := { s.pwt with heldDma := s.pwt.heldDma ++ [q] } }
    (s1.bump Reg.pwtPdWakeCnt 1).pdRequest (bankDomain a) 2
  else if !(innerReader q.reader) && !(s.granted2 p a q.len && s.granted2 p (a + (q.len - 1)) 1) then
    let s1 := s.fenceHit p (fenceKind a) a
    if q.write then s1 else (if kind = some 0 then s1.countUe a 2 q.holder.toNat (some p) else s1).readerActs q
  else if decide (kind = some 0) && decide (s.chState (s.chanOf a) = 3) then
    if q.write then s else (s.noteUe a q.holder.toNat (some p)).readerActs q
  else s.doAccess q

/-- POWER_DOMAIN_TRANSITION_DONE (R33, R35): the domain takes its state, and the DMA requests that were held at it are performed in their order. -/
def State.pdDone (s : State) (d : Nat) : State :=
  let s1 := s.domainDone d
  let mine := s1.pwt.heldDma.filter (fun q => decide (bankDomain q.addr = d))
  if mine.isEmpty || decide (s1.pdState d = 3) then s1
  else mine.foldl (fun (x : State) q => x.access q)
    { s1 with pwt := { s1.pwt with heldDma := s1.pwt.heldDma.filter (fun q => decide (bankDomain q.addr ≠ d)) } }

/-- Bits upset in stored words before a request reaches them. -/
def State.upset (s : State) (l : List (Nat × BitVec 72)) : State :=
  l.foldl (fun (x : State) e => { x with ecc := Tab.write (fun _ => 0) x.ecc e.1 (Tab.read (fun _ => 0) x.ecc e.1 ^^^ e.2) }) s

/-! ### Token buckets (R284, R297; log entry 101) -/

/-- The core regions whose routers a request crosses: that of a core that makes it and that of a core whose memory it names, where they are not the same core. -/
def reqRouters (q : MemReq) : List Nat :=
  let src := if q.holder.toNat / 16 = holderName 6 0 / 16 then [q.holder.toNat % 16] else []
  let dst := match memKind q.addr with | some 2 => [memUnit q.addr] | some 3 => [memUnit q.addr] | some 4 => [memUnit q.addr] | _ => []
  if src = dst then [] else src ++ dst

/-- The buckets that a request passes (State.dram.buckets): that of DRAM, and those at the routers. The scrubber takes slots that no admitted request can use, and passes none (R284). -/
def reqKeys (q : MemReq) : List Nat :=
  if q.reader = .scrubber then []
  else (if memKind q.addr = some 0 then [9 * q.part.toNat] else []) ++ (reqRouters q).map (fun c => 9 * q.part.toNat + 1 + c)

/-- The reserved rate of a bucket in MB/s. -/
def State.bktRate (s : State) (k : Nat) : Nat := s.partFld (k / 9) (if k % 9 = 0 then 12 else 24) 0 32
/-- Its ceiling in MB/s. -/
def State.bktCeiling (s : State) (k : Nat) : Nat := s.partFld (k / 9) (if k % 9 = 0 then 16 else 28) 0 32
/-- Its burst in KiB; 0 where the image grants the partition no bucket. -/
def State.bktBurst (s : State) (k : Nat) : Nat := s.partFld (k / 9) (if k % 9 = 0 then 20 else 22) 0 16

/-- The buckets that hold a request. -/
def State.bucketsOf (s : State) (q : MemReq) : List Nat := (reqKeys q).filter (fun k => decide (0 < s.bktBurst k))

/-- A bucket now: tokens accrue at the reserved rate up to the burst, and the spare traffic of the last 10 µs counts. -/
def State.bucket (s : State) (k : Nat) : Bucket :=
  let b := Tab.read (fun _ => {}) s.dram.buckets k
  { tokens := min (1024000 * s.bktBurst k) (b.tokens + s.bktRate k * (s.now - b.upTo)), upTo := s.now
    spare := b.spare.filter (fun e => decide (s.now < e.1 + 10000)) }

/-- Does a request of `n` bytes find reserved tokens in a bucket? -/
def State.hasTokens (s : State) (k n : Nat) : Bool := decide (1000 * n ≤ (s.bucket k).tokens)

/-- Do `n` bytes of spare traffic stay within the ceiling over the last 10 µs? -/
def State.spareFits (s : State) (k n : Nat) : Bool := decide (((s.bucket k).spare.map (fun e => e.2)).sum + n ≤ 10 * s.bktCeiling k)

/-- Is a request reserved traffic in every bucket that it passes? -/
def State.isReserved (s : State) (q : MemReq) : Bool := (s.bucketsOf q).all (fun k => s.hasTokens k q.len)

/-- May a request be admitted now: in every bucket as reserved or as spare traffic? -/
def State.admissible (s : State) (q : MemReq) : Bool := (s.bucketsOf q).all (fun k => s.hasTokens k q.len || s.spareFits k q.len)

/-- An admitted request takes its tokens, or counts as spare traffic. -/
def State.charge (s : State) (q : MemReq) : State :=
  { s with dram := { s.dram with buckets := (s.bucketsOf q).foldl (fun (t : Tab Bucket) k =>
      let b := s.bucket k
      Tab.write (fun _ => {}) t k (if s.hasTokens k q.len then { b with tokens := b.tokens - 1000 * q.len } else { b with spare := b.spare ++ [(s.now, q.len)] })) s.dram.buckets } }

/-- The oldest waiting request of each partition, in age order. -/
def State.waitHeads (s : State) : List MemReq :=
  s.dram.waiting.foldl (fun (l : List MemReq) q => if l.any (fun x => decide (x.part = q.part)) then l else l ++ [q]) []

/-- The next request to be admitted: the oldest that is reserved traffic; else one of spare traffic, in round robin over the partitions. -/
def State.nextAdmitted (s : State) : Option MemReq :=
  match s.waitHeads.find? (fun q => s.isReserved q) with
  | some q => some q
  | none => ((List.range 16).map (fun i => (s.dram.spareRr + i) % 16)).findSome? (fun p =>
      s.waitHeads.find? (fun q => decide (q.part.toNat = p) && s.admissible q))

/-- Waiting requests admitted one after the other, as long as one can be; `n` bounds them. -/
def State.admitWaiting (s : State) : Nat → State
  | 0 => s
  | n + 1 =>
    match s.nextAdmitted with
    | none => s
    | some q =>
      let rr := if s.isReserved q then s.dram.spareRr else (q.part.toNat + 1) % 16
      let s1 := s.charge q
      State.admitWaiting ({ s1 with dram := { s1.dram with waiting := s1.dram.waiting.erase q, spareRr := rr } }.access q) n

/-- MEMORY_ACCESS: the request comes last in age; those that the buckets admit now are served (R277, R297). -/
def State.memoryAccess (s : State) (flips : List (Nat × BitVec 72)) (q : MemReq) : State :=
  let s1 := s.upset flips
  { s1 with dram := { s1.dram with waiting := s1.dram.waiting ++ [q] } }.admitWaiting (s1.dram.waiting.length + 1)

/-- DMA_STARVE (R272, R274): a DMA-class request has waited longer than limit_us. -/
def State.dmaStarve (s : State) (holder index : Nat) : State :=
  let s1 := if s.bitAt Reg.memErr 2 then s else s.wr Reg.memStarveLoc (index % 256 + (holder % 256) <<< 8)
  s1.raise { idx := 7, unit := holder, bit := 2, aux := index }

/-- MEM_DMA_RESUME_WRITE (R281): the PF resumes any channel, a VF its own by bit 0. -/
def State.dmaResume (s : State) (f v : Nat) : State :=
  let m := if f = 0 then v % 65536 else (v % 2) <<< f
  s.wr Reg.memDmaHalt (s.rd Reg.memDmaHalt &&& (0xFFFFFFFF - m))

/-! ### The DRAM controller -/

/-- The poison pattern in every burst that `[a, a+n)` touches: zero data, check bits that decode as uncorrectable (R280, R285). -/
def State.poisonBursts (s : State) (a n : Nat) : State :=
  let b := a / 64 * 64
  let len := ceilDiv (a + n) 64 * 64 - b
  loopUp (len / 8) (fun k x => { x with ecc := Tab.insert x.ecc (b / 8 + k) (BitVec.ofNat 72 (3 <<< 64)) }) (s.wrBytes b len 0)

/-- One request failed by an uncorrectable command error: a read is treated under Table 12.3, the bursts of a write take the poison pattern where the channel recovers (R285). -/
def State.failRequest (s : State) (q : MemReq) : State :=
  let p := some q.part.toNat
  if q.write then
    let s1 := s.putLog q.addr (s.logEntry q.addr 3 0xFF q.holder.toNat p)
    if s.chState (s.chanOf q.addr) = 3 then s1
    else (s1.poisonBursts q.addr q.len).putLog q.addr (s1.logEntry q.addr 5 0xFF q.holder.toNat p)
  else ((s.countUe q.addr 3 q.holder.toNat p).ueFault q.addr).readerActs q

/-- Does class S memory, or memory of the safety island, lie in DRAM? -/
def State.sDram (s : State) : Bool := s.cfg.windows.any (fun e => !e.2.isEmpty && (decide (e.1 = 16) || s.classS e.1))

/-- A channel with eight uncorrectable command errors within 1 ms fails (R285). -/
def State.noteFail (s : State) (x : Nat) : State :=
  let l := ((Tab.read (fun _ => []) s.dram.fails x).filter (fun t => decide (s.now < t + 1000000))) ++ [s.now]
  let s1 := { s with dram := { s.dram with fails := Tab.write (fun _ => []) s.dram.fails x l } }
  if l.length < 8 ∨ s.chState x = 3 then s1
  else
    let s2 := s1.setFld (Reg.ddrChStatus x) 0 2 3
    if s.sDram then s2.fault { cause := 0x0B, subsys := 13, unit := x } else s2

/-- ALERT_N (R285): the commands are reissued once; with `again` a second alert makes the requests in hand fail. -/
def State.alertN (s : State) (x : Nat) (again : Bool) (qs : List MemReq) : State :=
  let s1 := (s.bump (Reg.ddrCaRetryCnt x) 1).raise { idx := 13, unit := x, bit := 2 }
  if !again then s1
  else
    let s2 := ((s1.bump (Reg.ddrCmdFailCnt x) 1).raise { idx := 13, unit := x, bit := 3 }).noteFail x
    qs.foldl (fun y q => y.failRequest q) s2

/-- Is the refresh interval halved (R286)? In auto mode the choice holds between the threshold and 5 °C below it. -/
def State.refresh2x (s : State) (x : Nat) : Bool :=
  let thr : Int := 16 * (s.fld Reg.ddrRefresh 8 8 : Nat)
  match s.fld Reg.ddrRefresh 0 2 with
  | 0 => false
  | 1 => true
  | _ => if thr < s.temp 11 then true else if s.temp 11 ≤ thr - 80 then false else s.bitAt (Reg.ddrChStatus x) 8

/-- DDR_REFRESH (R286): the interval of a channel expires; the next one is 7.8 or 3.9 µs. -/
def State.ddrRefresh (s : State) (x : Nat) : State :=
  if s.chState x = 2 then s.setFld (Reg.ddrChStatus x) 8 1 (b2n (s.refresh2x x)) else s

/-- SELF_REFRESH_ENTRY (R287): a rank without a request for sr_idle_us. -/
def State.selfRefresh (s : State) (x r : Nat) : State :=
  let idle := 1000 * clampNat 1 1000000 (s.fld Reg.ddrCtrl 0 20)
  if s.chState x = 2 ∧ s.rankState x r = 0 ∧ Tab.read (fun _ => 0) s.dram.lastReq (2 * x + r) + idle ≤ s.now then
    (s.setRank x r 1).bump (Reg.ddrSrEntries x) 1
  else s

/-- ZQ_CALIBRATION (R287): deferred while the rank is in self-refresh. -/
def State.zqCalibration (s : State) (x r : Nat) : State :=
  if s.chState x = 2 ∧ s.rankState x r = 0 then s.calibrate x r else s

/-! ### The scrubber (R290 to R292) -/

/-- May a pass run over the range: 64-byte units, within one region of Table 12.1? -/
def State.scrubOk (s : State) (b n : Nat) : Bool :=
  let e := b + n - 1
  decide (b % 64 = 0) && decide (n % 64 = 0) && decide (0 < n) && (memKind b).isSome && decide (memKind b = memKind e)
    && (decide (memKind b = some 0 ∨ memKind b = some 1) || decide (memUnit b = memUnit e)) && (decide (memKind b ≠ some 0) || s.mapped e)

/-- SCRUB_START (R290, R292). -/
def State.scrubStart (s : State) : State :=
  let b := s.rd64 Reg.memScrubBase
  if s.fld Reg.memScrubStatus 0 2 = 1 ∨ s.scrubOk b (s.rd64 Reg.memScrubLen) = false then s.setFld Reg.memScrubStatus 2 1 1
  else
    let s1 := ((((s.wr Reg.memScrubStatus 1).wr Reg.memScrubCe 0).wr Reg.memScrubUe 0).wr Reg.memScrubSkipped 0).wr Reg.memScrubWritten 0
    let s2 := (s1.wr64 Reg.memScrubFirst (2 ^ 64 - 1)).wr64 Reg.memScrubLast (2 ^ 64 - 1)
    { s2 with dram := { s2.dram with scrubAt := some b } }

/-- Is a unit skipped: its bank off or in retention, its rank in self-refresh or power-saving (R292)? -/
def State.scrubSkips (s : State) (a : Nat) : Bool :=
  match memKind a with
  | some 0 => decide (s.rankState (s.chanOf a) (s.hashBit 6 a) = 1 ∨ s.rankState (s.chanOf a) (s.hashBit 6 a) = 2)
  | _ => !(s.bankOn a)

/-- A failing word of the pass: counted and recorded; written back with write_back when correctable; logged when not. -/
def State.scrubWord (s : State) (e : Nat × BitVec 72) : State :=
  let a := 8 * e.1
  let one := decide (popCount 72 e.2.toNat = 1)
  let s1 := if s.rd64 Reg.memScrubFirst = 2 ^ 64 - 1 then s.wr64 Reg.memScrubFirst a else s
  let s2 := s1.wr64 Reg.memScrubLast a
  let dr := decide (memKind a = some 0)
  if one then
    let s3 := (s2.bump Reg.memScrubCe 1).bump (if dr then Reg.ddrCeCnt (s.chanOf a) else Reg.memCeCnt) 1
    let s4 := s3.memEvent a 0 0 0x60 none
    let s5 := if dr then s4.noteRate (s.chanOf a) a else s4
    if s.bitAt Reg.memScrubCtrl 0 then { (s5.bump Reg.memScrubWritten 1) with ecc := Tab.erase s5.ecc e.1 } else s5
  else
    ((s2.bump Reg.memScrubUe 1).countUe a 6 0x60 none).ueFault a

/-- The skipped 64-byte units of `[b, b + 64 n)`. -/
def State.skippedUnits (s : State) (b : Nat) : Nat → Nat
  | 0 => 0
  | n + 1 => State.skippedUnits s b n + (if s.scrubSkips (b + 64 * n) then 1 else 0)

/-- The pass carried from where it stands to `e`. -/
def State.scrubTo (s : State) (e : Nat) : State :=
  match s.dram.scrubAt with
  | none => s
  | some b =>
    let hits := (s.badWords b (e - b)).filter (fun x => !(s.scrubSkips (8 * x.1)))
    let s1 := hits.foldl (fun y x => y.scrubWord x) s
    { (s1.bump Reg.memScrubSkipped (s.skippedUnits b ((e - b) / 64))) with dram := { s1.dram with scrubAt := some e } }

/-- The end of a pass with a status. -/
def State.scrubEnd (s : State) (status : Nat) : State :=
  let s1 := { s with dram := { s.dram with scrubAt := none } }
  let s2 := s1.setFld Reg.memScrubStatus 0 2 status
  if status = 2 ∧ s.rd Reg.memScrubUe ≠ 0 then s2.raise { idx := 7, unit := 0x60, bit := 7, addr := s.rd64 Reg.memScrubFirst } else s2

/-- SCRUB_ABORT (R292): the pass ends at the next word, here after `done` bytes of its range. -/
def State.scrubAbort (s : State) (done : Nat) : State :=
  if s.fld Reg.memScrubStatus 0 2 ≠ 1 then s
  else (s.scrubTo (s.rd64 Reg.memScrubBase + min done (s.rd64 Reg.memScrubLen))).scrubEnd 3

/-- SCRUB_PASS_DONE (R290). -/
def State.scrubDone (s : State) : State :=
  if s.fld Reg.memScrubStatus 0 2 ≠ 1 then s
  else (s.scrubTo (s.rd64 Reg.memScrubBase + s.rd64 Reg.memScrubLen)).scrubEnd 2

end Sys2Proof.Machine
end

