-- ==== Sys2Proof/Machine/Crypto.lean ====
section
/-!
DEFINITION. SHA-256, HMAC-SHA-256 and ECDSA on P-256, as FIPS 180-4, FIPS 198-1, FIPS 186-5, SEC 1 and RFC 6979 give them (R356, R395, R396, R403, R406).
-/
namespace Sys2Proof.Machine

/-! ### SHA-256 -/

/-- The greatest `r` made of the low `fuel` bits on top of `r0` with `r ^ n ≤ a`. -/
def rootBelow (n a : Nat) : Nat → Nat → Nat
  | 0, r0 => r0
  | fuel + 1, r0 => rootBelow n a fuel (if (r0 + 2 ^ fuel) ^ n ≤ a then r0 + 2 ^ fuel else r0)

/-- The first 32 bits of the fractional part of the `n`-th root of `p`, from which FIPS 180-4 takes its constants. -/
def rootFraction (n p : Nat) : Nat := bits (rootBelow n (p <<< (32 * n)) 36 0) 0 32

/-- The primes below 312, which are the first 64. -/
def shaPrimes : List Nat := (List.range 312).filter (fun p => decide (1 < p) && (List.range p).all (fun d => decide (d < 2) || decide (p % d ≠ 0)))

/-- The 64 round constants: cube roots. -/
def shaConsts : List Nat := shaPrimes.map (rootFraction 3)

/-- Words side by side in one number, the first one most significant. -/
def packWords (ws : List Nat) : Nat := ws.foldl (fun n w => n <<< 32 + bits w 0 32) 0

/-- Word `i` of a packed number, counted from its last word. -/
def wordFromEnd (v i : Nat) : Nat := bits v (32 * i) 32

/-- The exclusive or of a word turned right by each amount. -/
def turns (x : Nat) (amounts : List Nat) : Nat := amounts.foldl (fun n r => n ^^^ bits (x + x <<< 32) r 32) 0

/-- The schedule is one 512-bit number with the word in turn on top; this moves it on by one word. -/
def shaSlide (w : Nat) : Nat :=
  let near := wordFromEnd w 1
  let far := wordFromEnd w 14
  bits w 0 480 <<< 32
    + bits ((turns near [17, 19] ^^^ near >>> 10) + wordFromEnd w 6 + (turns far [7, 18] ^^^ far >>> 3) + wordFromEnd w 15) 0 32

/-- One round on the eight working words, packed a to h. -/
def shaTurn (v w k : Nat) : Nat :=
  let reg := wordFromEnd v
  let pick := reg 1 ^^^ (reg 3 &&& (reg 2 ^^^ reg 1))
  let most := (reg 7 &&& (reg 6 ||| reg 5)) ||| (reg 6 &&& reg 5)
  let add := k + w + reg 0 + pick + turns (reg 3) [6, 11, 25]
  packWords [add + most + turns (reg 7) [2, 13, 22], reg 7, reg 6, reg 5, reg 4 + add, reg 3, reg 2, reg 1]

/-- The compression of one 512-bit block into a packed hash value. -/
def shaBlock (v block : Nat) : Nat :=
  let r := (shaConsts.foldl (fun (x : Nat × Nat) k => (shaTurn x.1 (wordFromEnd x.2 15) k, shaSlide x.2)) (v, block)).1
  packWords ((List.range 8).reverse.map (fun i => wordFromEnd v i + wordFromEnd r i))

/-- The big-endian integer of a byte string. -/
def beInt (b : Blob) : Nat := b.bytes.foldl (fun n x => 256 * n + x.toNat) 0

/-- The `n`-byte big-endian string of an integer. -/
def beBlob (n v : Nat) : Blob := Blob.ofBytes (leBytes n v).reverse

/-- The message padded to whole blocks: the byte 80H, zeros, the length in bits. -/
def shaPadded (m : Blob) : Blob :=
  Blob.append (Blob.append m { len := 64 * ((m.len + 72) / 64) - 8 - m.len, val := 0x80 }) (beBlob 8 (8 * m.len))

/-- SHA-256 of a byte string: 32 bytes. The first hash value comes from square roots. -/
def sha256 (m : Blob) : Blob :=
  let x := shaPadded m
  beBlob 32 (loopUp (x.len / 64) (fun n v => shaBlock v (beInt (x.slice (64 * n) 64))) (packWords ((shaPrimes.take 8).map (rootFraction 2))))

/-- A key of at most 64 bytes, each XORed with a pad byte. -/
def hmacPad (key : Blob) (p : Nat) : Blob := Blob.ofBytes ((leBytes 64 key.val).map (fun b => b ^^^ BitVec.ofNat 8 p))

/-- HMAC-SHA-256 with a key of at most 64 bytes. -/
def hmac256 (key m : Blob) : Blob :=
  sha256 (Blob.append (hmacPad key 0x5C) (sha256 (Blob.append (hmacPad key 0x36) m)))

/-! ### P-256 -/

/-- The field prime. -/
def p256P : Nat := 0xffffffff00000001000000000000000000000000ffffffffffffffffffffffff
/-- The order of the base point. -/
def p256N : Nat := 0xffffffff00000000ffffffffffffffffbce6faada7179e84f3b9cac2fc632551
/-- The coefficient b; a is p − 3. -/
def p256B : Nat := 0x5ac635d8aa3a93e7b3ebbd55769886bc651d06b0cc53b0f63bce3c3e27d2604b

/-- A point in affine coordinates; none is the point at infinity. -/
abbrev EcPoint := Option (Nat × Nat)

/-- The base point. -/
def p256G : EcPoint := some (0x6b17d1f2e12c4247f8bce6e563a440f277037d812deb33a0f4a13945d898c296,
  0x4fe342e2fe1a7f9b8ee7eb4a7c0f9e162bce33576b315ececbb6406837bf51f5)

/-- `b ^ e mod m` by the low `fuel` bits of `e`. -/
def powMod (m : Nat) : Nat → Nat → Nat → Nat
  | 0, _, _ => 1 % m
  | fuel + 1, b, e =>
    let r := powMod m fuel (b * b % m) (e / 2)
    if e % 2 = 1 then b * r % m else r

/-- The inverse modulo a prime below 2^256. -/
def invMod (m a : Nat) : Nat := powMod m 256 (a % m) (m - 2)

/-- The difference modulo `m` of numbers below it. -/
def subMod (m a b : Nat) : Nat := (a + m - b % m) % m

/-- The sum of two points. -/
def ecAdd (a b : EcPoint) : EcPoint :=
  match a, b with
  | none, _ => b
  | _, none => a
  | some (x1, y1), some (x2, y2) =>
    if x1 = x2 ∧ (y1 + y2) % p256P = 0 then none
    else
      let l :=
        if x1 = x2 then (3 * x1 * x1 + p256P - 3) % p256P * invMod p256P (2 * y1) % p256P
        else subMod p256P y2 y1 * invMod p256P (subMod p256P x2 x1) % p256P
      let x3 := subMod p256P (subMod p256P (l * l % p256P) x1) x2
      some (x3, subMod p256P (l * subMod p256P x1 x3 % p256P) y1)

/-- A multiple of a point, by the low `fuel` bits of the factor. -/
def ecMul : Nat → Nat → EcPoint → EcPoint
  | 0, _, _ => none
  | fuel + 1, k, a =>
    let r := ecMul fuel (k / 2) (ecAdd a a)
    if k % 2 = 1 then ecAdd a r else r

/-- The points with a given x coordinate. -/
def ecLift (x : Nat) : List EcPoint :=
  if p256P ≤ x then []
  else
    let c := (x * x % p256P * x + p256P * 3 - 3 * x + p256B) % p256P
    let y := powMod p256P 256 c ((p256P + 1) / 4)
    if y * y % p256P ≠ c then [] else if y = 0 then [some (x, 0)] else [some (x, y), some (x, p256P - y)]

/-- Are r and s in range (R396 step 2)? -/
def sigRange (r s : Nat) : Bool := decide (0 < r) && decide (r < p256N) && decide (0 < s) && decide (s < p256N)

/-- The candidate keys of a signature (R396 step 4). -/
def recoverKeys (e r s : Nat) : List EcPoint :=
  let rs := ecLift r ++ ecLift (r + p256N)
  rs.map (fun (p : EcPoint) =>
    let ri := invMod p256N r
    ecAdd (ecMul 256 (ri * s % p256N) p) (ecMul 256 (ri * (p256N - e % p256N) % p256N) p256G))

/-- The 64 bytes over which a public key is digested (R395). -/
def keyBytes (x y : Nat) : Blob := { len := 64, val := x + y <<< 256 }

/-- The digest of a public key (R395). -/
def keyDigest (q : EcPoint) : Option Blob := q.map (fun p => sha256 (keyBytes p.1 p.2))

/-- Does ECDSA accept (r, s) over the integer `e` with a public key (FIPS 186-5)? -/
def ecdsaVerify (q : EcPoint) (e r s : Nat) : Bool :=
  sigRange r s && (
    let w := invMod p256N s
    match ecAdd (ecMul 256 (e * w % p256N) p256G) (ecMul 256 (r * w % p256N) q) with
    | some (x, _) => decide (x % p256N = r)
    | none => false)

/-- Is a point on the curve, with its coordinates in range? -/
def onCurve (x y : Nat) : Bool :=
  decide (x < p256P) && decide (y < p256P) && (ecLift x).contains (some (x, y))

/-- RFC 6979: the candidates for k from the state (K, V), until one lies in range. -/
def rfcK (key v : Blob) : Nat → Option Nat
  | 0 => none
  | fuel + 1 =>
    let v1 := hmac256 key v
    let k := beInt v1
    if 0 < k ∧ k < p256N then some k
    else
      let key1 := hmac256 key (Blob.append v1 { len := 1, val := 0 })
      rfcK key1 (hmac256 key1 v1) fuel

/-- RFC 6979: the per-signature value for key `d` and digest `h`. -/
def rfc6979 (d : Nat) (h : Blob) : Option Nat :=
  let x := Blob.append (beBlob 32 d) (beBlob 32 (beInt h % p256N))
  let v0 : Blob := Blob.ofBytes (List.replicate 32 1)
  let k0 : Blob := { len := 32, val := 0 }
  let k1 := hmac256 k0 (Blob.append v0 (Blob.append { len := 1, val := 0 } x))
  let v1 := hmac256 k1 v0
  let k2 := hmac256 k1 (Blob.append v1 (Blob.append { len := 1, val := 1 } x))
  rfcK k2 (hmac256 k2 v1) 64

/-- ECDSA with a deterministic k (R406): r and s over the digest `h`. -/
def ecdsaSign (d : Nat) (h : Blob) : Nat × Nat :=
  match rfc6979 d h with
  | none => (0, 0)
  | some k =>
    let r := (match ecMul 256 k p256G with | some (x, _) => x % p256N | none => 0)
    (r, invMod p256N k * ((beInt h + r * d) % p256N) % p256N)

end Sys2Proof.Machine
end

