-- ==== Sys2Proof/Machine/ImageForm.lean ====
section
/-!
DEFINITION. The structure image: its header, section table and the fields of each section, with the load checks 1 to 4 of R361 (R354 to R361, R395 to R398, Tables 15.1 to 15.14).
-/
namespace Sys2Proof.Machine

/-- A reject record (Table 15.14). -/
structure Rej where
  code : Nat
  sect : Nat := 0
  item : Nat := 0xFFFFFFFF
  off : Nat := 0
  detail : Nat := 0xFFFFFFFF
  deriving DecidableEq, Repr

/-- The 16 bytes of a reject record. -/
def Rej.image (r : Rej) : Nat :=
  r.code + r.sect <<< 16 + (r.item % 2 ^ 32) <<< 32 + (r.off % 2 ^ 32) <<< 64 + (r.detail % 2 ^ 32) <<< 96

/-- A refusal where a condition is broken. -/
def refuseIf (bad : Bool) (r : Rej) : Option Rej := if bad then some r else none

/-! ### Sections (Tables 15.1 to 15.3) -/

/-- Sections of an image. -/
def imgSects (b : Blob) : Nat := b.le 12 2
/-- Offset of entry `i` of the section table. -/
def sectEntry (i : Nat) : Nat := 256 + 16 * i
/-- The entry of a section type, if present: offset, length, count. -/
def imgSect (b : Blob) (ty : Nat) : Option (Nat × Nat × Nat) :=
  ((List.range (imgSects b)).find? (fun i => decide (b.le (sectEntry i) 1 = ty))).map
    (fun i => (b.le (sectEntry i + 4) 4, b.le (sectEntry i + 8) 4, b.le (sectEntry i + 12) 4))
/-- The offset of a section; 0 where it is absent. -/
def sectOff (b : Blob) (ty : Nat) : Nat := match imgSect b ty with | some e => e.1 | none => 0
/-- The items of a section; 0 where it is absent. -/
def sectCount (b : Blob) (ty : Nat) : Nat := match imgSect b ty with | some e => e.2.2 | none => 0
/-- Is a section present? -/
def hasSect (b : Blob) (ty : Nat) : Bool := (imgSect b ty).isSome
/-- The item offsets of a section whose items are `size` bytes after a head of `head` bytes. -/
def sectItems (b : Blob) (ty head size : Nat) : List (Nat × Nat) :=
  (List.range (sectCount b ty)).map (fun (i : Nat) => (i, sectOff b ty + head + size * i))

/-- PARTITIONS items: index and offset. -/
def imgParts (b : Blob) : List (Nat × Nat) := sectItems b 2 0 64
/-- CORES items. -/
def imgCores (b : Blob) : List (Nat × Nat) := (List.range 8).map (fun (i : Nat) => (i, sectOff b 3 + 32 * i))
/-- MEMORY_MAP items. -/
def imgMaps (b : Blob) : List (Nat × Nat) := sectItems b 4 0 16
/-- POOLS items. -/
def imgPools (b : Blob) : List (Nat × Nat) := sectItems b 5 0 64
/-- HALYARD items. -/
def imgHal (b : Blob) : List (Nat × Nat) := sectItems b 6 0 32
/-- Classification items of INGRESS. -/
def imgClasses (b : Blob) : List (Nat × Nat) := if hasSect b 7 then sectItems b 7 128 64 else []
/-- Stream records: the streams field counts them. -/
def imgStreams (b : Blob) : List (Nat × Nat) :=
  if hasSect b 8 then (List.range (b.le (sectOff b 8) 2)).map (fun (i : Nat) => (i, sectOff b 8 + 16 + 512 * i)) else []
/-- Stream records whose entry is in use (Table 3.1): those that define a stream. -/
def imgLive (b : Blob) : List (Nat × Nat) := (imgStreams b).filter (fun e => bits b.val (8 * e.2 + 7) 1 == 1)
/-- Bindings. -/
def imgBinds (b : Blob) : List (Nat × Nat) :=
  if hasSect b 8 then
    (List.range (b.le (sectOff b 8 + 2) 2)).map (fun (i : Nat) => (i, sectOff b 8 + 16 + 512 * b.le (sectOff b 8) 2 + 32 * i))
  else []
/-- CALIBRATION items. -/
def imgCals (b : Blob) : List (Nat × Nat) := if hasSect b 11 then sectItems b 11 0 8 else []
/-- KEYS items. -/
def imgKeys (b : Blob) : List (Nat × Nat) := if hasSect b 13 then sectItems b 13 32 72 else []

/-- A field of an image: byte offset, first bit, length. -/
def ifld (b : Blob) (o byte lo len : Nat) : Nat := bits b.val (8 * (o + byte) + lo) len

/-- Partitions of class S in an image. -/
def imgClassS (b : Blob) (p : Nat) : Bool := (imgParts b).any (fun e => decide (ifld b e.2 0 0 4 = p) && ifld b e.2 0 4 1 == 1)

/-! ### Steps 1 to 3 -/

/-- Step 1: the header and target; `n` is the number of bytes supplied. -/
def checkHeader (s : State) (b : Blob) (n : Nat) : Option Rej :=
  let arrays := s.fld Reg.mgmtId1 8 8
  let grade := if arrays = 32 then 0 else if arrays = 28 then 1 else 2
  let sfx := s.fld Reg.mgmtId1 16 1
  (refuseIf (decide (b.le 0 4 ≠ 0x4E594C50)) { code := 0x01 })
  |>.or (refuseIf (decide (b.le 6 2 ≠ 256)) { code := 0x01, off := 6 })
  |>.or (refuseIf (decide (b.le 16 4 ≠ 256)) { code := 0x01, off := 16 })
  |>.or (refuseIf (decide (b.le 4 1 ≠ 1)) { code := 0x02, off := 4 })
  |>.or (refuseIf (decide (b.le 8 4 % 64 ≠ 0) || decide (33554432 < b.le 8 4) || decide (b.le 8 4 ≠ n)) { code := 0x03, off := 8 })
  |>.or (refuseIf (!(b.le 25 1).testBit grade) { code := 0x04, off := 25 })
  |>.or (refuseIf (!(b.le 26 1).testBit sfx) { code := 0x04, off := 26 })
  |>.or (refuseIf (decide (s.fld Reg.mgmtId1 0 8 < b.le 27 1)) { code := 0x04, off := 27 })
  |>.or (refuseIf (decide (b.le 28 2 ≠ 0x9632)) { code := 0x04, off := 28 })
  |>.or (refuseIf (decide (b.le 12 2 = 0) || decide (14 < b.le 12 2)) { code := 0x09, off := 12 })
  |>.or (refuseIf (decide (b.le 5 1 ≠ 0)) { code := 0x09, off := 5 })
  |>.or (refuseIf (decide (64 < b.le 24 1)) { code := 0x09, off := 24 })
  |>.or (refuseIf (decide (b.le 14 2 ≠ 0)) { code := 0x0A, off := 14 })
  |>.or (refuseIf (decide (b.le 30 2 ≠ 0)) { code := 0x0A, off := 30 })
  |>.or (refuseIf (decide (b.le 64 192 ≠ 0)) { code := 0x0A, off := 64 })

/-- Why R396 refuses a signature over the first `len − 128` bytes by the fused slots: SEC_VERIFY.reason, 0 none. -/
def sigReason (s : State) (b : Blob) : Nat :=
  let o := b.len - 128
  let slot := b.le (o + 4) 1
  let r := b.le (o + 8) 32
  let q := b.le (o + 40) 32
  if b.le o 4 ≠ 0x47495350 ∨ 3 < slot ∨ !(s.fld Reg.secStatus 4 4).testBit slot then 1
  else if (s.fld Reg.secStatus 8 4).testBit slot then 2
  else if sigRange r q = false then 3
  else
    let e := beInt (sha256 (b.slice 0 o))
    if (recoverKeys e r q).any (fun k => decide (keyDigest k = some { len := 32, val := s.rdWords (Reg.secKeyHash slot) 8 })) then 0 else 4

/-- The key slot that an image names. -/
def imgSlot (b : Blob) : Nat := bits (b.le (b.len - 124) 1) 0 2

/-- Step 2: the signature and the rollback counter (R396, R398). The second part is SEC_VERIFY. -/
def checkSig (s : State) (b : Blob) : Option Rej × Nat :=
  let why := sigReason s b
  if why ≠ 0 then (some { code := 0x05, off := b.len - 128 }, why + (imgSlot b) <<< 3)
  else if b.le 24 1 < s.fld Reg.secStatus 16 7 then (some { code := 0x06, off := 24 }, 5 + (imgSlot b) <<< 3)
  else
    let o := b.len - 128
    ((refuseIf (decide (b.le (o + 5) 3 ≠ 0)) { code := 0x0A, off := o + 5 }).or
      (refuseIf (decide (b.le (o + 72) 56 ≠ 0)) { code := 0x0A, off := o + 72 }), (imgSlot b) <<< 3)

/-- Has a body of a type the length that Table 15.3 gives for its count? -/
def bodyOk (b : Blob) (ty off len cnt : Nat) : Bool :=
  match ty with
  | 1 => len == 64
  | 2 => len == 64 * cnt && decide (1 ≤ cnt ∧ cnt ≤ 16)
  | 3 => len == 256
  | 4 => len == 16 * cnt
  | 5 => len == 64 * cnt && decide (1 ≤ cnt ∧ cnt ≤ 256)
  | 6 => len == 32 * cnt
  | 7 => len == 128 + 64 * cnt
  | 8 => len == 16 + 512 * b.le off 2 + 32 * b.le (off + 2) 2 && decide (cnt = b.le off 2)
  | 9 => len == 64
  | 10 => len == 128
  | 11 => len == 8 * cnt
  | 12 => decide (64 ≤ len)
  | 13 => len == 32 + 72 * cnt && decide (cnt ≤ 8)
  | _ => len == 128

/-- Entry `i` of the section table: ascending known type, version, place after the body before it, body length (R355). -/
def checkEntry (b : Blob) (i prevTy prevEnd : Nat) : Option Rej :=
  let o := sectEntry i
  let ty := b.le o 1
  let off := b.le (o + 4) 4
  let len := b.le (o + 8) 4
  refuseIf (decide (ty ≤ prevTy) || decide (14 < ty)) { code := 0x07, item := i, off := o }
  |>.or (refuseIf (decide (b.le (o + 1) 1 ≠ 1)) { code := 0x07, item := i, off := o + 1 })
  |>.or (refuseIf (decide (b.le (o + 2) 2 ≠ 0)) { code := 0x0A, item := i, off := o + 2 })
  |>.or (refuseIf (decide (off % 64 ≠ 0) || decide (off < prevEnd)) { code := 0x07, item := i, off := o + 4 })
  |>.or (refuseIf (decide (b.len < off + len + 128) || !(bodyOk b ty off len (b.le (o + 12) 4))) { code := 0x07, item := i, off := o + 8 })
  |>.or (refuseIf (decide (b.le prevEnd (off - prevEnd) ≠ 0)) { code := 0x0A, off := prevEnd })

/-- The entries of the section table in order. -/
def checkEntries (b : Blob) : Nat → Nat → Nat → Nat → Option Rej
  | 0, _, _, prevEnd => refuseIf (decide (b.le prevEnd (b.len - 128 - prevEnd) ≠ 0)) { code := 0x0A, off := prevEnd }
  | n + 1, i, prevTy, prevEnd =>
    (checkEntry b i prevTy prevEnd).or
      (checkEntries b n (i + 1) (b.le (sectEntry i) 1) (b.le (sectEntry i + 4) 4 + b.le (sectEntry i + 8) 4))

/-- The sections that Table 15.3 requires. -/
def sectNeeded (b : Blob) (ty : Nat) : Bool :=
  match ty with
  | 7 => (imgLive b).any (fun e => decide (ifld b e.2 1 0 4 < 3))
  | 9 => (imgParts b).any (fun e => ifld b e.2 0 4 1 == 1)
  | 8 => false
  | 11 => false
  | 13 => false
  | _ => decide (1 ≤ ty ∧ ty ≤ 14)

/-- Step 3: the section table. -/
def checkTable (b : Blob) : Option Rej :=
  (checkEntries b (imgSects b) 0 0 (256 + 16 * imgSects b)).or
    ((List.range 15).findSome? (fun ty => refuseIf (sectNeeded b ty && !(hasSect b ty)) { code := 0x08 }))

/-! ### Step 4: each section's own fields -/

/-- A field check: byte offset in the item, first bit, length, least and greatest value, whether 0 stands for the default, code. -/
structure FChk where
  off : Nat
  lo : Nat := 0
  len : Nat
  min : Nat := 0
  max : Nat := 0
  zero : Bool := false
  code : Nat := 0x09
  deriving DecidableEq, Repr

/-- Reserved bytes. -/
def rsv (off n : Nat) : FChk := { off := off, len := 8 * n, code := 0x0A }
/-- Reserved bits. -/
def rsvBits (off lo len : Nat) : FChk := { off := off, lo := lo, len := len, code := 0x0A }

/-- One field of one item. -/
def checkField (b : Blob) (sect item base : Nat) (f : FChk) : Option Rej :=
  let v := ifld b base f.off f.lo f.len
  refuseIf (!(f.zero && v == 0) && (decide (v < f.min) || decide (f.max < v))) { code := f.code, sect := sect, item := item, off := base + f.off }

/-- The fields of one item, in order. -/
def checkFields (b : Blob) (sect item base : Nat) (fs : List FChk) : Option Rej := fs.findSome? (checkField b sect item base)

/-- The fields of DEVICE (Table 15.5). -/
def deviceChk : List FChk := [rsv 2 6, { off := 8, len := 26 }, { off := 36, len := 8, max := 1 }, rsv 37 27]
/-- The fields of a PARTITIONS item (Table 15.6). -/
def partChk : List FChk := [rsvBits 0 5 3, { off := 1, len := 8, max := 15 }, { off := 2, len := 16, min := 100, max := 10000 },
  { off := 8, len := 16, max := 0x3FFE }, { off := 10, len := 16, max := 0x3FFF }, { off := 20, len := 16, min := 4, max := 1024 },
  { off := 22, len := 16, min := 4, max := 1024 }, { off := 42, len := 8, max := 7 }, rsv 43 21]
/-- The fields of a CORES item but the slots (Table 15.7). -/
def coreChk (b : Blob) (o : Nat) : List FChk :=
  [rsvBits 0 2 6, if ifld b o 0 0 2 = 0 then { off := 1, len := 8 } else { off := 1, len := 8, min := 2, max := 4 }, rsv 2 2, rsv 24 8]
/-- The fields of a MEMORY_MAP item (Table 15.8). -/
def mapChk (b : Blob) (o : Nat) : List FChk :=
  [{ off := 0, len := 8, min := 1, max := 3 }, { off := 1, len := 8, max := 16 }]
  ++ (if b.le o 1 = 2 then [{ off := 2, len := 8, max := 7 }, { off := 6, len := 16 }] else [])
  ++ [rsv 3 1] ++ (if b.le o 1 = 1 then [{ off := 8, len := 32, min := 1, max := 2 ^ 32 - 1 }] else []) ++ [rsv 12 4]
/-- The fields of a POOLS item (R359, Table 11.3). -/
def poolChk : List FChk := [{ off := 0, len := 1, min := 1, max := 1 }, { off := 1, len := 4, max := 8 }, rsvBits 1 4 4,
  { off := 4, len := 32, min := 256, max := 16777216 }, { off := 4, len := 8 }, { off := 8, len := 8 }, rsvBits 18 4 12,
  { off := 20, len := 32, min := 1, max := 1048576 }, rsv 41 1, rsv 44 20]
/-- The fields of a HALYARD item (Table 15.9). -/
def halChk (b : Blob) (o : Nat) : List FChk :=
  if b.le o 1 = 1 then [{ off := 1, len := 8, max := 15 }, rsv 14 18]
  else [{ off := 0, len := 8, min := 2, max := 2 }, { off := 1, len := 8, max := 15 }, { off := 2, len := 16, max := 0x3FFE },
    { off := 4, len := 2, max := 2 }, { off := 4, lo := 3, len := 2, max := 2 }, rsvBits 4 6 2, { off := 5, len := 8, min := 4, max := 16 },
    { off := 6, len := 8, min := 1, max := 64, zero := true }, rsv 7 1, { off := 8, len := 32, max := 100000 }, rsv 12 4,
    if ifld b o 4 0 2 = 2 then { off := 16, len := 12 } else { off := 16, len := 64 }, rsv 24 8]
/-- The port bytes of INGRESS (Table 15.10). -/
def ingChk : List FChk :=
  (List.range 8).map (fun (k : Nat) => rsv (8 * k + 5) 3) ++ [rsv 70 2, rsv 78 2, rsv 80 48]
/-- The fields of a classification item (Table 3.4). -/
def classChk (b : Blob) (o : Nat) : List FChk := [{ off := 0, lo := 4, len := 2, max := 2 }, rsv 1 1, rsvBits 3 4 4, rsvBits 4 7 1,
  rsvBits 5 6 2] ++ (if ifld b o 0 4 2 = 0 then [rsv 12 12] else []) ++ [{ off := 52, len := 8, max := 127 }, rsv 53 11]
/-- The fields of a stream entry (Table 3.1). -/
def streamChk : List FChk := [{ off := 0, len := 7, max := 95 }, { off := 1, len := 4, max := 3 }, rsvBits 2 4 4, rsvBits 13 5 3,
  rsvBits 25 6 2, { off := 26, len := 16, max := 50000 }, rsvBits 36 2 6, { off := 44, len := 5, max := 16 }, rsvBits 44 5 3, rsv 45 19]
/-- The fields of a stream entry in use that depend on its source (Tables 3.1, 3.2). -/
def sourceChk (b : Blob) (o : Nat) : List FChk :=
  match ifld b o 1 0 4 with
  | 0 => [{ off := 1, lo := 4, len := 4, max := 7 }, { off := 14, len := 16, min := 1, max := 256 }, { off := 18, len := 16, min := 16, max := 4096 }]
  | 3 => [{ off := 1, lo := 4, len := 4 }, { off := 3, len := 8, min := 1, max := 3 }]
  | _ => [{ off := 1, lo := 4, len := 4, max := 1 }, { off := 3, len := 8, min := 1, max := 3 }, { off := 14, len := 16, max := 127 }]
/-- The fields of a view in use (Tables 5.1, 5.3). -/
def viewChk (b : Blob) (o v : Nat) : List FChk :=
  let w := 64 + 64 * v
  if ifld b o w 0 1 = 0 then []
  else [{ off := w, lo := 6, len := 2, max := 2 }, { off := w + 1, len := 4, max := 6 }, { off := w + 2, len := 7, min := 1, max := if v = 0 then 1 else 64 },
    { off := w + 3, len := 8, min := 1, max := 64 }, { off := w + 28, len := 2, max := 1 }, { off := w + 28, lo := 2, len := 2, max := 2 }]
    ++ (if ifld b o (w + 28) 0 2 = 0 then [{ off := w + 31, len := 8, min := 1, max := 255 }] else [])
/-- The increments of a tracker that is enabled and waits (Table 10.2). -/
def waitChk (b : Blob) (o : Nat) : List FChk :=
  if ifld b o 320 0 1 = 0 then []
  else (if ifld b o 354 0 16 = 0xFFFF then [] else [{ off := 358, len := 8, min := 1, max := 255 }])
    ++ (if ifld b o 356 0 16 = 0xFFFF then [] else [{ off := 359, len := 8, min := 1, max := 255 }])
/-- The rest of a stream record (Tables 15.10, 10.2). -/
def recordChk : List FChk := [rsv (64 + 38) 2, rsv (128 + 38) 2, rsv (192 + 38) 2, rsv (256 + 38) 2, rsvBits 320 6 2,
  { off := 321, len := 8, min := 1, max := 8, zero := true }, rsv 323 1, { off := 350, len := 16, max := 1024 }, rsv 362 6, rsv 376 8,
  rsv 385 1, rsv 390 2, rsv 404 108]
/-- The fields of a binding (Table 9.8, Table 15.10). -/
def bindChk : List FChk := [{ off := 0, len := 7, max := 95 }, { off := 0, lo := 7, len := 1, min := 1, max := 1 }, rsvBits 1 6 2,
  { off := 2, len := 16, min := 1, max := 0xFFFE }, { off := 4, len := 8, min := 1, max := 64 }, rsv 6 1, rsvBits 7 1 7, rsv 8 16, rsvBits 25 6 2, rsv 26 6]
/-- The fields of SAFETY (Table 15.5). -/
def safetyChk : List FChk := [{ off := 0, len := 16, min := 100, max := 3000, zero := true }, { off := 2, len := 16, min := 100, max := 3000, zero := true },
  { off := 4, len := 16, min := 100, max := 3000, zero := true }, { off := 6, len := 8, min := 1, max := 8, zero := true },
  { off := 7, len := 8, min := 1, max := 60, zero := true }, rsv 8 56]
/-- The fields of POWER (Table 15.5). -/
def powerChk : List FChk := [{ off := 0, len := 32, min := 12000, max := 40000, zero := true }, { off := 4, len := 32, min := 1, max := 20000, zero := true },
  { off := 8, len := 16, min := 690, max := 1000, zero := true }, { off := 10, len := 8, min := 2, max := 20, zero := true }, rsv 11 53]
  ++ (List.range 256).map (fun (d : Nat) => { off := 64 + d / 4, lo := 2 * (d % 4), len := 2, max := 2 })
/-- Is a calibration shadow index defined, and the mask of its format (Table 16.4); 0 undefined. -/
def calMask (i : Nat) : Nat :=
  if i < 102 then 0x3F
  else if 128 ≤ i ∧ i < 332 then 0xFF
  else if 384 ≤ i ∧ i < 396 then 0xFFFF
  else if 400 ≤ i ∧ i < 403 then 0xFF
  else if 416 ≤ i ∧ i < 452 then 0xFFFF
  else if 464 ≤ i ∧ i < 504 then 0x1F
  else 0
/-- FIRMWARE: the four images lie in the body (Table 15.12). -/
def checkFirmware (b : Blob) : Option Rej :=
  let o := sectOff b 12
  let len := match imgSect b 12 with | some e => e.2.1 | none => 0
  ((List.range 4).findSome? (fun (i : Nat) =>
    let a := b.le (o + 4 + 8 * i) 4
    let n := b.le (o + 8 + 8 * i) 4
    refuseIf (decide (a % 64 ≠ 0)) { code := 0x09, sect := 12, off := o + 4 + 8 * i }
    |>.or (refuseIf (decide (262144 < n) || decide (len < a + n)) { code := 0x26, sect := 12, off := o + 4 + 8 * i })))
  |>.or (checkFields b 12 0xFFFFFFFF o [rsv 36 28])
/-- KEYS (Table 15.12). -/
def checkKeys (b : Blob) : Option Rej :=
  ((List.range 16).findSome? (fun (p : Nat) => checkFields b 13 0xFFFFFFFF (sectOff b 13) [rsvBits (2 * p) 1 7]))
  |>.or ((imgKeys b).findSome? (fun e => checkFields b 13 e.1 e.2 [rsv 1 7]))

/-! ### The DRAM body (R282, R283, Table 15.11) -/

/-- The mapping geometry of the DDR4 devices by density and width: row bits, bank-group bits (JESD79-4, log entry 28). -/
def ddrGeometry (density width : Nat) : Nat × Nat :=
  match density, width with
  | 0, 0 => (16, 2) | 0, 1 => (15, 2) | 0, _ => (15, 1)
  | 1, 0 => (17, 2) | 1, 1 => (16, 2) | 1, _ => (16, 1)
  | _, 0 => (18, 2) | _, 1 => (17, 2) | _, _ => (17, 1)
/-- The default masks of Table 12.5, CH0 to RANK. -/
def defaultHash (i : Nat) : Nat :=
  match i with
  | 0 => 0x088880100 | 1 => 0x111100200 | 2 => 0x002208000 | 3 => 0x004410000 | 4 => 0x220020000 | 5 => 0x440040000 | _ => 0
/-- A mask of the DRAM body; all seven 0 take Table 12.5. -/
def bodyHash (b : Blob) (o i : Nat) : Nat := if b.le (o + 24) 56 = 0 then defaultHash i else b.le (o + 24 + 8 * i) 8
/-- Log2 of the bytes of one rank of a channel. -/
def rankBits (b : Blob) (o : Nat) : Nat :=
  let g := ddrGeometry (ifld b o 2 2 2) (ifld b o 2 0 2)
  3 + 10 + g.1 + g.2 + 2
/-- Address bits of the organisation. -/
def bodyBits (b : Blob) (o : Nat) : Nat := rankBits b o + ifld b o 2 4 1 + (if b.le o 1 = 0xF then 2 else 1)
/-- Is a mask in order: inside the address, its other bits no anchor of a field? -/
def hashOk (b : Blob) (o i : Nat) : Bool :=
  let m := bodyHash b o i
  let anchors := (List.range 7).filterMap (fun (k : Nat) => firstSet (bodyHash b o k) 0 36)
  match firstSet m 0 36 with
  | none => true
  | some a =>
    decide (3 ≤ a) && decide (m < 2 ^ bodyBits b o) && decide ((anchors.filter (fun x => decide (x = a))).length = 1)
      && (List.range 36).all (fun (k : Nat) => decide (k = a) || !m.testBit k || !(anchors.contains k))
/-- R282 and R283 on a DRAM body. -/
def dramOrgOk (b : Blob) (o : Nat) : Bool :=
  let two := decide (b.le o 1 = 3)
  let ga := fun (i : Nat) => firstSet (bodyHash b o i) 0 36
  decide (rankBits b o + ifld b o 2 4 1 ≤ 34)
  && (ifld b o 2 5 1 == 0 || ifld b o 2 0 2 != 0)
  && (List.range 7).all (fun (i : Nat) => hashOk b o i)
  && decide (two = true → bodyHash b o 1 = 0)
  && (if two then decide (ga 0 = some 8 ∨ ga 0 = some 9) else decide ((ga 0 = some 8 ∧ ga 1 = some 9) ∨ (ga 0 = some 9 ∧ ga 1 = some 8)))
  && decide (bodyHash b o 2 ≠ 0) && (decide (bodyHash b o 3 ≠ 0) == decide ((ddrGeometry (ifld b o 2 2 2) (ifld b o 2 0 2)).2 = 2))
  && decide (bodyHash b o 4 ≠ 0) && decide (bodyHash b o 5 ≠ 0) && (decide (bodyHash b o 6 ≠ 0) == (ifld b o 2 4 1 == 1))
/-- The fields of the DRAM body. -/
def dramChk : List FChk := [{ off := 1, len := 8, max := 6 }, { off := 2, len := 2, max := 2 }, { off := 2, lo := 2, len := 2, max := 2 },
  rsvBits 3 1 7, rsv 5 3, rsv 80 48]
/-- The DRAM section. -/
def checkDram (b : Blob) : Option Rej :=
  let o := sectOff b 14
  refuseIf (decide (b.le o 1 ≠ 3) && decide (b.le o 1 ≠ 0xF)) { code := 0x09, sect := 14, off := o }
  |>.or (checkFields b 14 0xFFFFFFFF o dramChk)
  |>.or (refuseIf (!(dramOrgOk b o)) { code := 0x27, sect := 14, off := o })

/-! ### Step 4 as a whole -/

/-- What a PARTITIONS item says beyond Table 15.6's ranges: class S has rank 0; the offset lies within the period. -/
def checkPart (b : Blob) (e : Nat × Nat) : Option Rej :=
  (checkFields b 2 e.1 e.2 partChk)
  |>.or (refuseIf (ifld b e.2 0 4 1 == 1 && decide (b.le (e.2 + 1) 1 ≠ 0)) { code := 0x09, sect := 2, item := e.1, off := e.2 + 1 })
  |>.or (refuseIf (decide (b.le (e.2 + 2) 2 ≤ b.le (e.2 + 4) 4)) { code := 0x09, sect := 2, item := e.1, off := e.2 + 4 })
/-- A slot owner is a partition or 0xFF. -/
def checkCore (b : Blob) (e : Nat × Nat) : Option Rej :=
  (checkFields b 3 e.1 e.2 (coreChk b e.2))
  |>.or ((List.range 20).findSome? (fun (i : Nat) =>
    let v := b.le (e.2 + 4 + i) 1
    refuseIf (decide (15 < v) && decide (v ≠ 0xFF)) { code := 0x09, sect := 3, item := e.1, off := e.2 + 4 + i }))
/-- A POOLS item: bit 2 of byte 0 is the owner's class; a safety pool's owner reads 0 (R359, Table 11.3). -/
def checkPool (b : Blob) (e : Nat × Nat) : Option Rej :=
  (checkFields b 5 e.1 e.2 poolChk)
  |>.or (refuseIf (ifld b e.2 0 3 1 == 0 && (ifld b e.2 0 2 1 == 1) != imgClassS b (ifld b e.2 0 4 4))
      { code := 0x09, sect := 5, item := e.1, off := e.2, detail := b.le (e.2 + 40) 1 })
  |>.or (refuseIf (ifld b e.2 0 3 1 == 1 && decide (ifld b e.2 0 4 4 ≠ 0)) { code := 0x09, sect := 5, item := e.1, off := e.2, detail := b.le (e.2 + 40) 1 })
/-- A stream record: its reserved bytes, and the ranges of an entry in use. -/
def checkRecord (b : Blob) (e : Nat × Nat) : Option Rej :=
  (checkFields b 8 e.1 e.2 streamChk)
  |>.or (if ifld b e.2 0 7 1 = 0 then none
    else (checkFields b 8 e.1 e.2 (sourceChk b e.2))
      |>.or (refuseIf (decide (ifld b e.2 1 0 4 = 0) && !([0x1E, 0x1F, 0x24, 0x2A, 0x2B, 0x2C, 0x2D, 0x2E].contains (b.le (e.2 + 3) 1)))
        { code := 0x09, sect := 8, item := e.1, off := e.2 + 3 })
      |>.or ((List.range 4).findSome? (fun v => checkFields b 8 e.1 e.2 (viewChk b e.2 v)))
      |>.or (checkFields b 8 e.1 e.2 (waitChk b e.2)))
  |>.or (checkFields b 8 e.1 e.2 recordChk)
/-- Step 4: every section in ascending type. -/
def checkSections (b : Blob) : Option Rej :=
  let streams := (imgStreams b).findSome? (checkRecord b)
  (checkFields b 1 0xFFFFFFFF (sectOff b 1) deviceChk)
  |>.or ((imgParts b).findSome? (checkPart b))
  |>.or ((imgCores b).findSome? (checkCore b))
  |>.or ((imgMaps b).findSome? (fun e => checkFields b 4 e.1 e.2 (mapChk b e.2)))
  |>.or ((imgPools b).findSome? (checkPool b))
  |>.or ((imgHal b).findSome? (fun e => checkFields b 6 e.1 e.2 (halChk b e.2)))
  |>.or (if hasSect b 7 then checkFields b 7 0xFFFFFFFF (sectOff b 7) ingChk else none)
  |>.or ((imgClasses b).findSome? (fun e => checkFields b 7 e.1 e.2 (classChk b e.2)))
  |>.or (if hasSect b 8 then checkFields b 8 0xFFFFFFFF (sectOff b 8) [rsv 4 12] else none)
  |>.or streams
  |>.or ((imgBinds b).findSome? (fun e => checkFields b 8 e.1 e.2 bindChk))
  |>.or (if hasSect b 9 then checkFields b 9 0xFFFFFFFF (sectOff b 9) safetyChk else none)
  |>.or (checkFields b 10 0xFFFFFFFF (sectOff b 10) powerChk)
  |>.or ((imgCals b).findSome? (fun e => refuseIf (decide (calMask (b.le e.2 4) = 0)) { code := 0x2A, sect := 11, item := e.1, off := e.2 }))
  |>.or (checkFirmware b)
  |>.or (if hasSect b 13 then checkKeys b else none)
  |>.or (checkDram b)

end Sys2Proof.Machine
end

