-- ==== Sys2Proof/Machine/ImageApply.lean ====
section
/-!
DEFINITION. Applying the sections of a structure image (R357 to R360, R362, R366, R380).
-/
namespace Sys2Proof.Machine

/-! ### Presets -/

/-- What a register keeps of a written word where its field is clamped (the register tables of 04, 05, 11, 12, 02). -/
def regClamp (a v : Nat) : Nat :=
  if a = Reg.decCtrl then clampNat 1000 65000 (bits v 0 16) + clampNat 10 255 (bits v 16 8) <<< 16
  else if a = Reg.pfeCtrl then clampNat 100 10000 (bits v 0 14)
  else if a = Reg.poolCtrl then clampNat 10 65535 (bits v 0 16)
  else if a = Reg.memDmaLimit then clampNat 1 1000 (bits v 0 10)
  else if a = Reg.ddrCtrl then clampNat 1 1000000 (bits v 0 20) + clampNat 100 4000 (bits v 20 12) <<< 20
  else if a = Reg.ddrZq then clampNat 16 1024 (bits v 0 16)
  else if a = Reg.memScrubCtrl then bits v 0 1 + (clampNat 1 64 (bits v 1 6)) % 64 <<< 1
  else if a = Reg.pwtMargin then clampNat 2 20 (bits v 0 5)
  else v

/-- A preset of a register (R357): 0 leaves the reset value. -/
def State.preset (s : State) (a v : Nat) : State := s.wr a (if v = 0 then (regReset a).toNat else regClamp a v)

/-- A field with "0 →" (R357). -/
def orDefault (v d : Nat) : Nat := if v = 0 then d else v

/-! ### DEVICE, PARTITIONS, CORES, MEMORY_MAP, SAFETY, POWER -/

/-- DEVICE: presets and the image region (Table 15.5). -/
def State.applyDevice (s : State) (b : Blob) : State :=
  let o := sectOff b 1
  let p := fun (i : Nat) => b.le (o + 16 + 4 * i) 4
  let s1 := ((((s.preset Reg.decCtrl (p 0)).preset Reg.pfeCtrl (p 1)).preset Reg.poolCtrl (p 2)).preset Reg.memDmaLimit (p 3))
  let s2 := s1.writeTbCtrl (if p 4 = 0 then (regReset Reg.tbCtrl).toNat else p 4)
  let s3 := if b.le (o + 36) 1 = 0 then s2 else s2.setFld Reg.mgmtI2cCtrl 0 1 1
  { s3 with sec := { s3.sec with region := b.le (o + 8) 8 } }

/-- PARTITIONS (Table 15.6). -/
def State.applyParts (s : State) (b : Blob) : State :=
  let s0 := { s with cfg := { s.cfg with parts := (imgParts b).foldl (fun (t : Tab Desc64) e => Tab.write (fun _ => 0) t (ifld b e.2 0 0 4) (BitVec.ofNat 512 (b.le e.2 64))) [] } }
  let s1 := loopUp 16 (fun p x => x.setFld (Reg.safPart p) 0 6 0) s0
  (imgParts b).foldl (fun x e =>
    let p := ifld b e.2 0 0 4
    (x.setFld (Reg.safPart p) 0 1 (ifld b e.2 0 4 1)).setFld (Reg.safPart p) 2 4 (b.le (e.2 + 1) 1)) s1

/-- CORES: slot tables, locks, pair states; a suspect pair stays suspect (R308, R366). -/
def State.applyCores (s : State) (b : Blob) : State :=
  let item := fun (c : Nat) => b.le (sectOff b 3 + 32 * c) 32
  let s1 := { s with cfg := { s.cfg with cores := (List.range 8).map (fun (c : Nat) => (c, BitVec.ofNat 256 (item c))) } }
  let slots := loopUp 8 (fun c t => loopUp 20 (fun i (u : Tab Nat) => Tab.write (fun _ => 0xFF) u (20 * c + i) (bits (item c) (8 * (4 + i)) 8)) t) ([] : Tab Nat)
  let s2 := { s1 with pln := { s1.pln with slots := slots } }
  let s3 := loopUp 8 (fun c x => x.setLock c (bits (item c) 0 1 == 1)) s2
  let s4 := loopUp 4 (fun k x =>
    let st := if bits (item (2 * k)) 0 1 = 1 then 1 else if bits (item (2 * k)) 1 1 = 1 then 2 else 0
    (if x.fld Reg.safPairState (4 * k) 2 = 3 then x else x.setFld Reg.safPairState (4 * k) 2 st).setFld Reg.safPairState (4 * k + 2) 2 0) s3
  s4.setFld Reg.safStatus 6 1 0

/-- MEMORY_MAP: windows in item order, bank masks (Table 15.8). -/
def State.applyMap (s : State) (b : Blob) : State :=
  let g0 := { s.cfg with windows := [], scratch := [], sbanks := [] }
  let g := (imgMaps b).foldl (fun (g : Grants) e =>
    let ow := b.le (e.2 + 1) 1
    match b.le e.2 1 with
    | 1 => { g with windows := Tab.write (fun _ => []) g.windows ow (Tab.read (fun _ => []) g.windows ow ++ [(b.le (e.2 + 4) 4 * 2 ^ 20, b.le (e.2 + 8) 4 * 2 ^ 20)]) }
    | 2 => { g with scratch := Tab.write (fun _ => 0) g.scratch (8 * ow + b.le (e.2 + 2) 1) (Tab.read (fun _ => 0) g.scratch (8 * ow + b.le (e.2 + 2) 1) ||| b.le (e.2 + 4) 2) }
    | _ => { g with sbanks := Tab.write (fun _ => 0) g.sbanks ow (Tab.read (fun _ => 0) g.sbanks ow ||| b.le (e.2 + 4) 4) }) g0
  { s with cfg := g }

/-- SAFETY (Table 15.5); its defaults where the section is absent. -/
def State.applySafety (s : State) (b : Blob) : State :=
  let o := sectOff b 9
  let f := fun (i n d : Nat) => if hasSect b 9 then orDefault (b.le (o + i) n) d else d
  (s.wr Reg.safLimits0 (f 0 2 1000 + (f 2 2 1000) <<< 16)).wr Reg.safLimits1 (f 4 2 1000 + (f 6 1 3) <<< 16 + (f 7 1 10) <<< 24)

/-- The initial state of a domain (Table 15.5). -/
def pdInit (b : Blob) (d : Nat) : Nat := ifld b (sectOff b 10) (64 + d / 4) (2 * (d % 4)) 2

/-- Must a core hold array `a` off as surplus of a locked pair: more than arrays_used of its enabled ones lie below it (R307)? -/
def State.surplus (s : State) (b : Blob) (c a : Nat) : Bool :=
  bits (b.le (sectOff b 3 + 32 * c) 1) 0 1 == 1
    && decide (b.le (sectOff b 3 + 32 * c + 1) 1 ≤ popCount a (s.fusedEn c))

/-- The initial states of the domains, in ascending order; fused-off and surplus arrays and those of a suspect pair stay off (R34, R307, R308). -/
def State.applyDomains (s : State) (b : Blob) : State :=
  loopUp 253 (fun d x =>
    let off := (decide (d < 64) && (x.pdFused d || x.surplus b ((d % 32) / 4) (d % 4))) || x.suspectPd d
    let st := if off then 0 else pdInit b d
    let y := if st = 2 && decide (x.pdState d ≠ 2) then x.zeroFill (pdRange d) else x
    if d < 32 ∧ st = 2 ∧ x.coreGated (d / 4) = true then (y.setPd d 0).markGated d 1 else y.setPd d st) s

/-- POWER: the cap, the allowance, the margin and the domains' initial states. -/
def State.applyPower (s : State) (b : Blob) : State :=
  let o := sectOff b 10
  let s1 := s.wr Reg.pwtPowerCap (orDefault (b.le o 4) 28000)
  let s2 := { s1 with pwt := { s1.pwt with fixedMw := orDefault (b.le (o + 4) 4) 6000, logicNeeded := orDefault (b.le (o + 8) 2) 1000 } }
  (s2.wr Reg.pwtMargin (orDefault (b.le (o + 10) 1) 5)).applyDomains b

/-! ### DRAM (Table 15.11) -/

/-- The DRAM body: population, organisation, masks, presets, retained ranks. -/
def State.applyDram (s : State) (b : Blob) (o : Nat) : State :=
  let ch := b.le o 1
  let two := ifld b o 2 4 1
  let cfg := bits (b.le (o + 1) 1) 0 4 + (ifld b o 2 0 2) <<< 4 + (ifld b o 2 2 2) <<< 6 + two <<< 8 + (ifld b o 2 5 3) <<< 9
  let s1 := s.wr Reg.ddrPop ch
  let s2 := loopUp 4 (fun x y => if ch.testBit x then (y.wr (Reg.ddrChCfg x) cfg).setFld (Reg.ddrChStatus x) 4 2 (if two = 1 then 0 else 3) else y) s1
  let s3 := loopUp 7 (fun i y => y.wr64 (Reg.ddrHash i) (bodyHash b o i)) s2
  let s4 := (((s3.preset Reg.ddrCtrl (b.le (o + 8) 4)).preset Reg.ddrRefresh (b.le (o + 12) 4)).preset Reg.ddrZq (b.le (o + 16) 4)).preset Reg.ddrCeThresh (b.le (o + 20) 4)
  { s4 with dram := { s4.dram with rowBits := (ddrGeometry (ifld b o 2 2 2) (ifld b o 2 0 2)).1, colBits := 10, retain := b.le (o + 4) 1 } }

/-! ### POOLS, HALYARD, INGRESS, STREAMS -/

/-- POOLS: every descriptor replaced, every buffer free (R359, R366). -/
def State.applyPools (s : State) (b : Blob) : State :=
  let s1 := s.clearRegs (Reg.poolDesc 0) (Reg.poolDesc 256)
  let s2 := s1.clearSome (fun a => decide (Reg.poolStat 0 ≤ a) && decide (a < Reg.poolStat 256) && decide (a % 32 ≠ 16) && decide (a % 32 ≠ 20))
  let s3 := { s2 with pool := {} }
  (imgPools b).foldl (fun x e => x.wrWords (Reg.poolDesc (b.le (e.2 + 40) 1)) 10 (b.le e.2 40)) s3

/-- The first word of a queue descriptor from a HALYARD item; an internal queue is enabled (R254, Table 15.9). -/
def halQueueWord (b : Blob) (o : Nat) : Nat :=
  let ty := ifld b o 4 0 2
  ty + b2n (decide (ty = 2)) <<< 2 + (ifld b o 4 2 1) <<< 3 + (ifld b o 4 3 2) <<< 4 + (ifld b o 5 0 5) <<< 8
    + (ifld b o 1 0 4) <<< 16 + (ifld b o 4 5 1) <<< 20 + (b.le (o + 6) 1) <<< 24

/-- HALYARD: sync objects 0, watches disarmed, ranges and queues loaded (R358, R366). -/
def State.applyHalyard (s : State) (b : Blob) : State :=
  let s0 := s.clearRegs (Reg.halSyncValue 0) (Reg.halSyncValue 65536)
  let s1 := s0.clearSome (fun a => decide (Reg.halQueueDesc 0 ≤ a) && decide (a < Reg.halQueueDesc 16384) && decide (a % 64 ≠ 40) && decide (a % 64 ≠ 44))
  let s2 := (s1.clearRegs (Reg.halWatch 0) (Reg.halWatch 4096)).clearRegs (Reg.halRangeSync 0) (Reg.halRangeSync 16)
  let s3 := { s2 with hal := {}, col := { s2.col with rings := [] } }
  (imgHal b).foldl (fun x e =>
    if b.le e.2 1 = 1 then
      x.wrWords (Reg.halRangeSync (b.le (e.2 + 1) 1)) 3 (b.le (e.2 + 2) 12)
    else
      let q := b.le (e.2 + 2) 2
      ((x.wr (Reg.halQueueDesc q) (halQueueWord b e.2)).wr (Reg.halQueueDesc q + 4) (b.le (e.2 + 8) 4)).wr64 (Reg.halQueueDesc q + 8) (b.le (e.2 + 16) 8)) s3

/-- INGRESS: port presets, lane maps, classification entries (Table 15.10). -/
def State.applyIngress (s : State) (b : Blob) : State :=
  let o := sectOff b 7
  let s0 := { (s.clearRegs (Reg.ingEthClass 0) (Reg.ingEthClass 128)) with ing := { s.ing with classes := [] }, cfg := { s.cfg with lanes := [] } }
  if hasSect b 7 then
    let s1 := loopUp 8 (fun k x =>
      let y := x.preset (Reg.ingCsiCtrl k) (b.le (o + 8 * k) 4)
      { y with cfg := { y.cfg with lanes := Tab.write (fun _ => 0) y.cfg.lanes k (b.le (o + 8 * k + 4) 1) } }) s0
    let s2 := loopUp 2 (fun e x => (x.preset (Reg.ingEthCtrl e) (b.le (o + 64 + 8 * e) 4)).preset (Reg.ingEthPause e) (b.le (o + 68 + 8 * e) 2)) s1
    (imgClasses b).foldl (fun x e =>
      let n := b.le (e.2 + 52) 1
      let v := putBits (b.le e.2 64) 416 8 0
      let y := x.wrWords (Reg.ingEthClass n) 16 v
      { y with ing := { y.ing with classes := Tab.write (fun _ => 0) y.ing.classes n (BitVec.ofNat 512 v) } }) s2
  else s0

/-- One stream record (Table 15.10); class_s is copied from the partition (Table 3.1). -/
def State.applyStream (s : State) (b : Blob) (o : Nat) : State :=
  let st := ifld b o 0 0 7
  let s1 := { s with cfg := { s.cfg with streams := Tab.write (fun _ => 0) s.cfg.streams st (BitVec.ofNat 512 (b.le o 64)) } }
  let s2 := s1.wrWords (Reg.pfeView st 0) 64 (b.le (o + 64) 256)
  let s3 := s2.wrWords (Reg.trkStrmDesc st) 16 (b.le (o + 320) 64)
  let s4 := ((s3.wr (Reg.colStrmCfg st) (b.le (o + 392) 4)).wr (Reg.pfeStrmCfg st) (b.le (o + 396) 4)).wr (Reg.pfeStrmEnc st) (b.le (o + 400) 4)
  if st < 64 then (s4.preset (Reg.decStrmWeight st) (b.le (o + 384) 1)).wr (Reg.decStrmCfg st) (b.le (o + 386) 4) else s4

/-- The stream windows and what the units keep of every stream, as at reset; sequences go (R51, R360). -/
def State.clearStreams (s : State) : State :=
  let s1 := loopUp 96 (fun st x =>
    let y := (((x.wrWords (Reg.pfeView st 0) 64 0).wrWords (Reg.trkStrmDesc st) 16 0).wr (Reg.colStrmCfg st) 0).wr (Reg.pfeStrmCfg st) 0
    let z := (y.wr (Reg.pfeStrmEnc st) 0).wr (Reg.ingStrmState st) 0
    if st < 64 then (z.wr (Reg.decStrmCfg st) 0).wr (Reg.decStrmState st) 0 else z) s
  { { s1 with ing := { s1.ing with strm := [], toDecoder := [] } }.storeLevels with
    cfg := { s1.cfg with streams := [] }, dec := {}, pfe := {}, trk := {},
    pln := { s1.pln with seqs := [], unbind := [], units := [], frames := [] }, col := { s1.col with frames := [], closed := [] } }

/-- A binding becomes a sequence; priority and hole_policy are copied from the stream, and it is invalid until its model is loaded (R360, Table 9.8). -/
def State.applyBind (s : State) (b : Blob) (i o : Nat) : State :=
  let v := b.le o 32
  let st := seqStream v
  let v1 := putBits (putBits (putBits v 40 8 (s.stPriority st)) 56 1 (s.strmFld st 36 0 1)) 7 1 0
  s.setSeq i (if s.seqReady v1 then v1 + 128 else v1)

/-- STREAMS. -/
def State.applyStreams (s : State) (b : Blob) : State :=
  let s1 := (imgStreams b).foldl (fun x e => x.applyStream b e.2) s.clearStreams
  (imgBinds b).foldl (fun x e => x.applyBind b e.1 e.2) s1

/-! ### CALIBRATION, FIRMWARE -/

/-- A calibration shadow takes a value within its format; bits above it ignore writes (Table 16.4). -/
def State.setShadow (s : State) (i v : Nat) : State := s.wr (Reg.secCalShadow i) (v &&& calMask i)

/-- CALIBRATION items in item order (R384). -/
def State.applyCals (s : State) (b : Blob) : State := (imgCals b).foldl (fun x e => x.setShadow (b.le e.2 4) (b.le (e.2 + 4) 4)) s

/-- The memories of control core `n` loaded from two images of a FIRMWARE body. -/
def State.loadCore (s : State) (fw : Blob) (n first : Nat) : State :=
  let img := fun (i : Nat) => fw.slice (fw.le (4 + 8 * i) 4) (fw.le (8 + 8 * i) 4)
  let base := 0x1040000000 + 0x1000000 * n
  (s.wrMem base (img first).len (img first).val).wrMem (base + 0x40000) (img (first + 1)).len (img (first + 1)).val

/-- The FIRMWARE body of an image. -/
def imgFirmware (b : Blob) : Blob := match imgSect b 12 with | some e => b.slice e.1 e.2.1 | none => Blob.empty

/-- Control cores of a pair of Table 12.1: 0 PA, 1 PB, 2 SM, 3 SP, with the images that R361's firmware gives them. -/
def State.loadPair (s : State) (fw : Blob) (pair : Nat) : State :=
  (s.loadCore fw (2 * pair) (if pair = 2 then 2 else 0)).loadCore fw (2 * pair + 1) (if pair = 2 then 2 else 0)

/-- FIRMWARE: PA, PB and SM load their images, SP too while it serves (R310); the versions are shown (R366, R380). -/
def State.applyFirmware (s : State) (b : Blob) : State :=
  let fw := imgFirmware b
  let s1 := ((s.loadPair fw 0).loadPair fw 1).loadPair fw 2
  (if s.bitAt Reg.safStatus 5 then (s1.setPd 252 2).loadPair fw 3 else s1).wr Reg.mgmtFwVer (fw.le 0 4) |>.wr Reg.mgmtImageVer (b.le 20 4)

/-! ### The cap floor (R362) -/

/-- Does an image give slots of core `c` to a class S partition? -/
def imgCoreS (b : Blob) (c : Nat) : Bool :=
  (List.range 20).any (fun (i : Nat) => let p := b.le (sectOff b 3 + 32 * c + 4 + i) 1; decide (p < 16) && imgClassS b p)

/-- Class S stream records. -/
def imgStreamsS (b : Blob) : List (Nat × Nat) := (imgLive b).filter (fun e => imgClassS b (ifld b e.2 12 0 4))

/-- The decoders that a compressed stream record loads: both of a pair where it is decoded twice. -/
def recDecoders (b : Blob) (o : Nat) : List Nat :=
  if 64 ≤ ifld b o 0 0 7 then []
  else let d := ifld b o 13 0 2; if ifld b o 13 4 1 = 1 then [d, d ^^^ 1] else [d]

/-- The front ends that produce or check a class S stream's views (R121). -/
def recFrontEnds (b : Blob) (o : Nat) : List Nat := let f := ifld b o 13 2 2; [f, f ^^^ 1]

/-- The views of a record that are valid. -/
def recViews (b : Blob) (o : Nat) : List Nat := (List.range 4).filter (fun (v : Nat) => ifld b (o + 64 + 64 * v) 0 0 1 == 1)

/-- PWT_CAP_MIN_S of an image (R362). -/
def imgCapMin (b : Blob) : Nat :=
  let pairs := (List.range 4).foldl (fun (n k : Nat) =>
    if imgCoreS b (2 * k) || imgCoreS b (2 * k + 1) then n + 520 * 2 * b.le (sectOff b 3 + 64 * k + 1) 1 else n) 0
  let decs := (List.range 4).filter (fun (d : Nat) => (imgStreamsS b).any (fun e => (recDecoders b e.2).contains d))
  let fes := (List.range 4).filter (fun (f : Nat) => (imgStreamsS b).any (fun e => !(recViews b e.2).isEmpty && (recFrontEnds b e.2).contains f))
  orDefault (b.le (sectOff b 10 + 4) 4) 6000 + 1800 + pairs + 400 * decs.length + 250 * fes.length

/-! ### All sections -/

/-- The sections that fix grants, descriptors and registers, before the memories are touched. -/
def State.applyGrants (s : State) (b : Blob) : State :=
  let s1 := ((((s.applyDevice b).applyParts b).applyCores b).applyMap b).applySafety b
  let s2 := ((((s1.applyPools b).applyHalyard b).applyIngress b).applyStreams b)
  s2.wr Reg.pwtCapMinS (imgCapMin b)

/-- Every section applied in the order of R380. -/
def State.applyImage (s : State) (b : Blob) : State :=
  let s1 := s.applyPower b
  ((s1.applyGrants b).applyCals b).applyFirmware b

end Sys2Proof.Machine
end

