-- ==== Sys2Proof/Machine/ImageRules.lean ====
section
/-!
DEFINITION. The load checks 5 and 6 of R361: the rules that join sections, and the class S fit (R295, R298, R302, R303, R307 to R309, R336, R358, R359, R362, R363, Table 15.13). Rules about grants are asked of the state that the image would give.
-/
namespace Sys2Proof.Machine

/-- Every pair of places i < j of a list. -/
def pairsOf {α : Type} : List α → List (α × α)
  | [] => []
  | x :: t => t.map (fun y => (x, y)) ++ pairsOf t

/-- Do two half-open ranges overlap? -/
def overlap (a n b m : Nat) : Bool := decide (a < b + m) && decide (b < a + n)

/-- A refusal of an item of a section. -/
def rejAt (code sect : Nat) (e : Nat × Nat) (byte : Nat) (detail : Nat := 0xFFFFFFFF) : Rej :=
  { code := code, sect := sect, item := e.1, off := e.2 + byte, detail := detail }

/-- Is a partition defined: in DEVICE.partitions? -/
def imgDefines (b : Blob) (p : Nat) : Bool := (b.le (sectOff b 1) 2).testBit p

/-- The PARTITIONS item of a partition. -/
def partItem (b : Blob) (p : Nat) : Option (Nat × Nat) := (imgParts b).find? (fun e => decide (ifld b e.2 0 0 4 = p))

/-- PART_UNDEFINED. -/
def rulePartitions (b : Blob) : Option Rej :=
  ((imgParts b).findSome? (fun e => refuseIf (!(imgDefines b (ifld b e.2 0 0 4))) (rejAt 0x0B 2 e 0 (ifld b e.2 0 0 4))))
  |>.or ((List.range 16).findSome? (fun p => refuseIf (imgDefines b p && (partItem b p).isNone) { code := 0x0B, sect := 1, off := sectOff b 1, detail := p }))
  |>.or ((imgCores b).findSome? (fun e => (List.range 20).findSome? (fun i =>
      let p := b.le (e.2 + 4 + i) 1
      refuseIf (decide (p < 16) && !(imgDefines b p)) (rejAt 0x0B 3 e (4 + i) p))))
  |>.or ((imgMaps b).findSome? (fun e => refuseIf (decide (b.le (e.2 + 1) 1 < 16) && !(imgDefines b (b.le (e.2 + 1) 1))) (rejAt 0x0B 4 e 1 (b.le (e.2 + 1) 1))))
  |>.or ((imgPools b).findSome? (fun e => refuseIf (ifld b e.2 0 3 1 == 0 && !(imgDefines b (ifld b e.2 0 4 4))) (rejAt 0x0B 5 e 0 (ifld b e.2 0 4 4))))
  |>.or ((imgPools b).findSome? (fun e => (List.range 16).findSome? (fun p => refuseIf ((b.le (e.2 + 2) 2).testBit p && !(imgDefines b p)) (rejAt 0x0B 5 e 2 p))))
  |>.or ((imgHal b).findSome? (fun e => refuseIf (!(imgDefines b (b.le (e.2 + 1) 1))) (rejAt 0x0B 6 e 1 (b.le (e.2 + 1) 1))))
  |>.or ((imgLive b).findSome? (fun e => refuseIf (!(imgDefines b (ifld b e.2 12 0 4))) (rejAt 0x0B 8 e 12 (ifld b e.2 12 0 4))))
  |>.or ((imgBinds b).findSome? (fun e => refuseIf (!(imgDefines b (ifld b e.2 1 2 4))) (rejAt 0x0B 8 e 1 (ifld b e.2 1 2 4))))

/-- FENCE_OVERLAP and WINDOW_COUNT. -/
def ruleFences (b : Blob) : Option Rej :=
  let region := b.le (sectOff b 1 + 8) 8
  let wins := (imgMaps b).filter (fun e => decide (b.le e.2 1 = 1))
  let span := fun (e : Nat × Nat) => (b.le (e.2 + 4) 4 * 2 ^ 20, b.le (e.2 + 8) 4 * 2 ^ 20)
  let owner := fun (e : Nat × Nat) => b.le (e.2 + 1) 1
  let banks := (imgMaps b).filter (fun e => decide (b.le e.2 1 ≠ 1))
  let clash := fun (x : (Nat × Nat) × (Nat × Nat)) =>
    decide (owner x.1 ≠ owner x.2) && decide (b.le x.1.2 1 = b.le x.2.2 1)
      && (decide (b.le x.1.2 1 = 3) || decide (b.le (x.1.2 + 2) 1 = b.le (x.2.2 + 2) 1))
      && decide (b.le (x.1.2 + 4) 4 &&& b.le (x.2.2 + 4) 4 ≠ 0)
  ((pairsOf wins).findSome? (fun x => refuseIf (overlap (span x.1).1 (span x.1).2 (span x.2).1 (span x.2).2) (rejAt 0x0C 4 x.2 4 (owner x.2))))
  |>.or (wins.findSome? (fun e => refuseIf (overlap (span e).1 (span e).2 region (2 ^ 26)
      || decide (2 ^ bodyBits b (sectOff b 14) < (span e).1 + (span e).2)) (rejAt 0x0C 4 e 4 (owner e))))
  |>.or ((pairsOf banks).findSome? (fun x => refuseIf (clash x) (rejAt 0x0C 4 x.2 4 (owner x.2))))
  |>.or ((List.range 17).findSome? (fun p =>
      (wins.filter (fun e => decide (owner e = p)))[8]?.map (fun e => rejAt 0x0D 4 e 1 p)))
  |>.or ((imgParts b).findSome? (fun e =>
      let p := ifld b e.2 0 0 4
      refuseIf (decide ((wins.filter (fun x => decide (owner x = p))).length ≤ b.le (e.2 + 42) 1)) (rejAt 0x0D 2 e 42 p)))

/-- The slots that a partition owns on a core in an image. -/
def imgSlots (b : Blob) (c p : Nat) : Nat := countSlots (fun i => b.le (sectOff b 3 + 32 * c + 4 + i) 1) p

/-- The standby pair of an image. -/
def imgStandby (b : Blob) : Option Nat := (List.range 4).find? (fun k => ifld b (sectOff b 3 + 64 * k) 0 1 1 == 1)

/-- Class S partitions of an image. -/
def imgPartsS (b : Blob) : List (Nat × Nat) := (imgParts b).filter (fun e => ifld b e.2 0 4 1 == 1)

/-- PAIR_ARRAYS, PAIR_SUSPECT, SLOT_TABLE, STANDBY. -/
def ruleCores (s : State) (b : Blob) : Option Rej :=
  let at_ := fun (c : Nat) => sectOff b 3 + 32 * c
  let flags := fun (c : Nat) => ifld b (at_ c) 0 0 2
  let used := fun (c : Nat) => b.le (at_ c + 1) 1
  let pair := fun (k : Nat) =>
    refuseIf (decide (flags (2 * k) ≠ flags (2 * k + 1)) || decide (used (2 * k) ≠ used (2 * k + 1))
        || decide (flags (2 * k) ≠ 0 ∧ (popCount 4 (s.fusedEn (2 * k)) < used (2 * k) ∨ popCount 4 (s.fusedEn (2 * k + 1)) < used (2 * k + 1))))
      (rejAt 0x0E 3 (2 * k, at_ (2 * k)) 0)
    |>.or (refuseIf (decide (flags (2 * k) ≠ 0) && decide (s.fld Reg.safPairState (4 * k) 2 = 3)) (rejAt 0x0F 3 (2 * k, at_ (2 * k)) 0))
  let slot := fun (c : Nat) => (List.range 20).findSome? (fun i =>
    let p := b.le (at_ c + 4 + i) 1
    refuseIf (decide (p < 16) && (imgClassS b p != (flags c % 2 == 1))) (rejAt 0x10 3 (c, at_ c) (4 + i) p))
  let same := fun (k : Nat) => refuseIf (flags (2 * k) % 2 == 1 && decide (b.le (at_ (2 * k) + 4) 20 ≠ b.le (at_ (2 * k + 1) + 4) 20)) (rejAt 0x10 3 (2 * k, at_ (2 * k)) 4)
  ((List.range 4).findSome? pair) |>.or ((List.range 8).findSome? slot) |>.or ((List.range 4).findSome? same)

/-- STANDBY (R309). -/
def ruleStandby (s : State) (b : Blob) : Option Rej :=
  let at_ := fun (c : Nat) => sectOff b 3 + 32 * c
  match imgStandby b with
  | none => (imgPartsS b).findSome? (fun e => refuseIf (decide (b.le (e.2 + 40) 2 ≠ 0)) (rejAt 0x12 2 e 40 (ifld b e.2 0 0 4)))
  | some k =>
    let more := (List.range 4).find? (fun j => decide (k < j) && ifld b (at_ (2 * j)) 0 1 1 == 1)
    let n := min (popCount 4 (s.fusedEn (2 * k))) (popCount 4 (s.fusedEn (2 * k + 1)))
    (more.map (fun j => rejAt 0x12 3 (2 * j, at_ (2 * j)) 0))
    |>.or (refuseIf (ifld b (at_ (2 * k)) 0 0 1 == 1) (rejAt 0x12 3 (2 * k, at_ (2 * k)) 0))
    |>.or ((List.range 4).findSome? (fun j => refuseIf (ifld b (at_ (2 * j)) 0 0 1 == 1 && decide (n < b.le (at_ (2 * j) + 1) 1)) (rejAt 0x12 3 (2 * k, at_ (2 * k)) 1)))
    |>.or ((imgPartsS b).findSome? (fun e => refuseIf (decide (b.le (e.2 + 40) 2 = 0)) (rejAt 0x12 2 e 40 (ifld b e.2 0 0 4))))
    |>.or ((pairsOf (imgPartsS b)).findSome? (fun x => refuseIf (decide (b.le (x.1.2 + 40) 2 &&& b.le (x.2.2 + 40) 2 ≠ 0)) (rejAt 0x12 2 x.2 40 (ifld b x.2.2 0 0 4))))
    |>.or ((imgMaps b).findSome? (fun e =>
        let ow := b.le (e.2 + 1) 1
        refuseIf (decide (b.le e.2 1 = 2) && decide (b.le (e.2 + 2) 1 / 2 = k) && !(imgClassS b ow)
            && (imgPartsS b).any (fun x => decide (b.le (x.2 + 40) 2 &&& b.le (e.2 + 4) 2 ≠ 0))) (rejAt 0x12 4 e 4 ow)))

/-- Does a partition's traffic cross the router of core `c`: it owns slots or banks there (log entry 29)? -/
def crosses (t : State) (b : Blob) (p c : Nat) : Bool := decide (0 < imgSlots b c p) || decide (t.scratchMask p c ≠ 0)

/-- BW_RESERVED (R298). -/
def ruleBandwidth (t : State) (b : Blob) : Option Rej :=
  let sum := (imgParts b).foldl (fun (n : Nat) e => n + b.le (e.2 + 12) 4) 0
  let lim := if b.le (sectOff b 14) 1 = 0xF then 61440 else 30720
  let net := fun (c : Nat) => (imgParts b).foldl (fun (n : Nat) e => if crosses t b (ifld b e.2 0 0 4) c then n + b.le (e.2 + 24) 4 else n) 0
  (imgParts b).findSome? (fun e => refuseIf (decide (b.le (e.2 + 16) 4 < b.le (e.2 + 12) 4)) (rejAt 0x14 2 e 16 (ifld b e.2 0 0 4))
    |>.or (refuseIf (decide (b.le (e.2 + 28) 4 < b.le (e.2 + 24) 4)) (rejAt 0x14 2 e 28 (ifld b e.2 0 0 4))))
  |>.or (refuseIf (decide (lim < sum)) { code := 0x14, sect := 2, off := sectOff b 2 + 12 })
  |>.or ((List.range 8).findSome? (fun c => refuseIf (decide (25600 < net c)) { code := 0x14, sect := 2, off := sectOff b 2 + 24 }))

/-! ### HALYARD -/

/-- Range items and queue items. -/
def halRanges (b : Blob) : List (Nat × Nat) := (imgHal b).filter (fun e => decide (b.le e.2 1 = 1))
/-- Queue items. -/
def halQueues (b : Blob) : List (Nat × Nat) := (imgHal b).filter (fun e => decide (b.le e.2 1 = 2))

/-- RANGE_OVERLAP and RANGE_LIMIT: sync objects, queues, watches. -/
def ruleRanges (b : Blob) : Option Rej :=
  let rng := fun (e : Nat × Nat) (i : Nat) => (b.le (e.2 + 2 + 4 * i) 2, b.le (e.2 + 4 + 4 * i) 2)
  ((pairsOf (halRanges b)).findSome? (fun x => (List.range 3).findSome? (fun i =>
    refuseIf (decide (0 < (rng x.1 i).2) && decide (0 < (rng x.2 i).2) && overlap (rng x.1 i).1 (rng x.1 i).2 (rng x.2 i).1 (rng x.2 i).2) (rejAt 0x15 6 x.2 (2 + 4 * i) (b.le (x.2.2 + 1) 1)))))
  |>.or ((halRanges b).findSome? (fun e => refuseIf (decide (b.le (e.2 + 1) 1 ≠ 0)
      && (decide (32768 < (rng e 0).2) || decide (2048 < (rng e 1).2) || decide (1024 < (rng e 2).2))) (rejAt 0x16 6 e 4 (b.le (e.2 + 1) 1))))

/-- May partition `p` name queue `q`: it is allocated with that owner? -/
def ownsQueue (b : Blob) (p q : Nat) : Bool :=
  (halQueues b).any (fun e => decide (b.le (e.2 + 2) 2 = q) && decide (b.le (e.2 + 1) 1 = p))

/-- May partition `p` use pool `k`: its owner, or in the grant mask? -/
def usesPool (t : State) (p k : Nat) : Bool := t.pValid k && (decide (t.pOwner k = p) && !(t.pSafety k) || t.pGrants k p)

/-- QUEUE_OWNER. -/
def ruleQueueOwner (t : State) (b : Blob) : Option Rej :=
  let opt := fun (p q : Nat) => decide (q = noQueue) || ownsQueue b p q
  let sync := fun (p n : Nat) => decide (n = noSync) || t.inSyncRange p n
  ((halQueues b).findSome? (fun e => refuseIf (decide (ifld b e.2 4 0 2 ≠ 2) && !(t.inQueueRange (b.le (e.2 + 1) 1) (b.le (e.2 + 2) 2))) (rejAt 0x17 6 e 2 (b.le (e.2 + 2) 2))))
  |>.or ((pairsOf (halQueues b)).findSome? (fun x => refuseIf (decide (b.le (x.1.2 + 2) 2 = b.le (x.2.2 + 2) 2)) (rejAt 0x17 6 x.2 2 (b.le (x.2.2 + 2) 2))))
  |>.or ((imgParts b).findSome? (fun e =>
      let p := ifld b e.2 0 0 4
      refuseIf (!(ownsQueue b p (b.le (e.2 + 8) 2))) (rejAt 0x17 2 e 8 (b.le (e.2 + 8) 2))
      |>.or (refuseIf (!(opt p (b.le (e.2 + 10) 2))) (rejAt 0x17 2 e 10 (b.le (e.2 + 10) 2)))))
  |>.or ((imgLive b).findSome? (fun e =>
      let p := ifld b e.2 12 0 4
      let csi := decide (64 ≤ ifld b e.2 0 0 7)
      let trk := ifld b e.2 320 0 1 == 1
      refuseIf (!(usesPool t p (b.le (e.2 + 16) 2))) (rejAt 0x17 8 e 16 (b.le (e.2 + 16) 2))
      |>.or (refuseIf (csi && !(sync p (b.le (e.2 + 20) 2) && sync p (b.le (e.2 + 22) 2))) (rejAt 0x17 8 e 20))
      |>.or (refuseIf (!csi && !(ownsQueue b p (ifld b e.2 24 0 14))) (rejAt 0x17 8 e 24 (ifld b e.2 24 0 14)))
      |>.or (refuseIf (!csi && (!(usesPool t p (b.le (e.2 + 386) 2)) || !(sync p (b.le (e.2 + 388) 2)))) (rejAt 0x17 8 e 386))
      |>.or (refuseIf (trk && (!(opt p (ifld b e.2 348 0 14)) || !(opt p (ifld b e.2 360 0 14)) || !(sync p (b.le (e.2 + 354) 2)) || !(sync p (b.le (e.2 + 356) 2)))) (rejAt 0x17 8 e 348))
      |>.or (refuseIf (!(ownsQueue b p (ifld b e.2 392 0 14))) (rejAt 0x17 8 e 392 (ifld b e.2 392 0 14)))
      |>.or ((recViews b e.2).findSome? (fun v =>
        refuseIf (ifld b e.2 (64 + 64 * v + 28) 0 2 == 1 && !(usesPool t p (b.le (e.2 + 64 + 64 * v + 32) 2))) (rejAt 0x17 8 e (64 + 64 * v + 32) (b.le (e.2 + 64 + 64 * v + 32) 2))))
      |>.or (refuseIf (ifld b e.2 396 14 1 == 1 && !(ownsQueue b p (ifld b e.2 396 0 14))) (rejAt 0x17 8 e 396 (ifld b e.2 396 0 14)))
      |>.or (refuseIf (csi && decide (b.le (e.2 + 400) 4 ≠ 0) && (!(usesPool t p (b.le (e.2 + 400) 2)) || !(sync p (b.le (e.2 + 402) 2)))) (rejAt 0x17 8 e 400))))
  |>.or ((imgBinds b).findSome? (fun e => refuseIf (!(ownsQueue b (ifld b e.2 1 2 4) (ifld b e.2 24 0 14))) (rejAt 0x17 8 e 24 (ifld b e.2 24 0 14))))

/-- The consumers of submission queues in an image: job queues, push queues, ROI queues (R347). -/
def imgConsumers (b : Blob) : List (Nat × (Nat × Nat) × Nat) :=
  (imgParts b).map (fun e => (b.le (e.2 + 10) 2, e, 2))
  ++ ((imgLive b).filter (fun e => decide (ifld b e.2 1 0 4 = 3))).map (fun e => (ifld b e.2 24 0 14, e, 8))
  ++ ((imgLive b).filter (fun e => ifld b e.2 396 14 1 == 1)).map (fun e => (ifld b e.2 396 0 14, e, 8))

/-- QUEUE_POLICY and QUEUE_TWICE. -/
def rulePolicy (b : Blob) : Option Rej :=
  ((halQueues b).findSome? (fun e =>
    let s := imgClassS b (b.le (e.2 + 1) 1)
    let fault := decide (ifld b e.2 4 3 2 = 2)
    let result := decide (ifld b e.2 4 0 2 = 1)
    refuseIf ((fault && !s) || (result && s && (!fault || decide (3000 < b.le (e.2 + 8) 4)))) (rejAt 0x18 6 e 4 (b.le (e.2 + 2) 2))))
  |>.or ((pairsOf ((imgConsumers b).filter (fun c => (halQueues b).any (fun e => decide (b.le (e.2 + 2) 2 = c.1) && decide (ifld b e.2 4 0 2 = 0))))).findSome? (fun x => refuseIf (decide (x.1.1 = x.2.1)) (rejAt 0x19 x.2.2.2 x.2.2.1 0 x.2.1)))
  |>.or ((imgPartsS b).findSome? (fun e => refuseIf (decide (b.le (e.2 + 10) 2 ≠ noQueue)) (rejAt 0x19 2 e 10 (b.le (e.2 + 10) 2))))

/-! ### POOLS -/

/-- A pool's memory and descriptor fields. -/
def poolSpan (b : Blob) (o : Nat) : Nat × Nat := (b.le (o + 8) 8, b.le (o + 4) 4 * b.le (o + 20) 4)

/-- Does a pool's memory lie in its owner's windows or banks (R258)? Owner 16 is the safety island. -/
def poolFenced (t : State) (b : Blob) (o : Nat) : Bool :=
  let w := if ifld b o 0 3 1 = 1 then 16 else ifld b o 0 4 4
  let m := poolSpan b o
  if ifld b o 0 1 1 = 0 then t.inWindow w m.1 m.2
  else decide (0x1000000000 ≤ m.1) && decide (m.1 + m.2 ≤ 0x1001000000)
    && (List.range 32).all (fun k => !(overlap m.1 m.2 (0x1000000000 + 0x80000 * k) 0x80000) || (t.streamMask w).testBit k)

/-- Buffers that device units reserve in a pool for the streams of an image (R363). -/
def poolNeed (b : Blob) (k : Nat) : Nat :=
  (imgLive b).foldl (fun (n : Nat) e =>
    let o := e.2
    let comp := decide (ifld b o 0 0 7 < 64)
    let au := if comp && decide (b.le (o + 16) 2 = k) then 1 else 0
    let refs := if b.le (o + 3) 1 = 3 then 0 else orDefault (ifld b o 44 0 5) 4
    let dec := if comp && decide (b.le (o + 386) 2 = k) then (1 + refs) * (1 + ifld b o 13 4 1) else 0
    let views := (recViews b o).foldl (fun (m v : Nat) =>
      let w := o + 64 + 64 * v
      let f := 2 ^ ifld b w 0 6 2
      if ifld b w 28 0 2 = 1 ∧ b.le (w + 32) 2 = k then m + max 1 (ifld b w 2 0 7) * ceilDiv (b.le (w + 18) 2) (f * max 1 (b.le (w + 3) 1)) else m) 0
    n + au + dec + views) 0

/-- POOL_FENCE, POOL_OVERLAP, POOL_THRESH, POOL_SHARE, POOL_SIZE. -/
def rulePools (t : State) (b : Blob) : Option Rej :=
  let k := fun (e : Nat × Nat) => b.le (e.2 + 40) 1
  let total := (imgPools b).foldl (fun (n : Nat) e => n + b.le (e.2 + 20) 4) 0
  ((imgPools b).findSome? (fun e => refuseIf (!(poolFenced t b e.2)) (rejAt 0x1A 5 e 8 (k e))))
  |>.or ((pairsOf (imgPools b)).findSome? (fun x => refuseIf (overlap (b.le (x.1.2 + 16) 4) (b.le (x.1.2 + 20) 4) (b.le (x.2.2 + 16) 4) (b.le (x.2.2 + 20) 4)) (rejAt 0x1B 5 x.2 16 (k x.2))))
  |>.or ((imgPools b).findSome? (fun e => refuseIf (decide (1048576 < total) || decide (1048576 < b.le (e.2 + 16) 4 + b.le (e.2 + 20) 4)) (rejAt 0x1B 5 e 16 (k e))))
  |>.or ((imgPools b).findSome? (fun e =>
      let n := b.le (e.2 + 24) 4; let p := b.le (e.2 + 28) 4; let c := b.le (e.2 + 32) 4
      let cnt := b.le (e.2 + 20) 4
      refuseIf (decide (cnt < n) || decide (cnt < p) || decide (cnt < c) || (decide (0 < p ∧ p < n)) || decide (0 < c ∧ c < p) || decide (0 < c ∧ c < n)) (rejAt 0x1C 5 e 24 (k e))))
  |>.or ((imgPools b).findSome? (fun e =>
      let g := b.le (e.2 + 2) 2
      refuseIf ((decide (g ≠ 0) && decide (ifld b e.2 0 2 2 ≠ 0)) || (List.range 16).any (fun p => g.testBit p && imgClassS b p)) (rejAt 0x1D 5 e 2 (k e))))
  |>.or ((imgPools b).findSome? (fun e => refuseIf (decide (b.le (e.2 + 20) 4 < b.le (e.2 + 42) 2) || decide (b.le (e.2 + 20) 4 < poolNeed b (k e))) (rejAt 0x1E 5 e 20 (k e))))

/-! ### STREAMS -/

/-- STREAM_SOURCE: the kinds of R48, the class copied, one stream a port and channel or classification entry, four channels a port. -/
def ruleSources (b : Blob) : Option Rej :=
  let st := fun (e : Nat × Nat) => ifld b e.2 0 0 7
  let csi := fun (e : Nat × Nat) => decide (ifld b e.2 1 0 4 = 0)
  let port := fun (e : Nat × Nat) => ifld b e.2 1 4 4
  ((imgLive b).findSome? (fun e =>
    refuseIf ((csi e) != decide (64 ≤ st e) || (ifld b e.2 12 4 1 == 1) != imgClassS b (ifld b e.2 12 0 4)) (rejAt 0x1F 8 e 1 (st e))))
  |>.or ((pairsOf (imgLive b)).findSome? (fun x =>
      refuseIf (decide (st x.1 = st x.2)
        || (csi x.1 && csi x.2 && decide (port x.1 = port x.2) && decide (ifld b x.1.2 2 0 4 = ifld b x.2.2 2 0 4))
        || (decide (ifld b x.1.2 1 0 4 = 1 ∨ ifld b x.1.2 1 0 4 = 2) && decide (ifld b x.2.2 1 0 4 = 1 ∨ ifld b x.2.2 1 0 4 = 2) && decide (b.le (x.1.2 + 14) 2 = b.le (x.2.2 + 14) 2)))
        (rejAt 0x1F 8 x.2 1 (st x.2))))
  |>.or ((List.range 8).findSome? (fun k =>
      ((imgLive b).filter (fun e => csi e && decide (port e = k)))[4]?.map (fun e => rejAt 0x1F 8 e 1 (st e))))

/-- A fraction added to a fraction. -/
def fracAdd (x y : Nat × Nat) : Nat × Nat := (x.1 * y.2 + y.1 * x.2, x.2 * y.2)

/-- The luma pixels per ns of a stream record, as a fraction; 0 for a period of 0. -/
def recRate (b : Blob) (o : Nat) : Nat × Nat := if b.le (o + 8) 4 = 0 then (0, 1) else (b.le (o + 4) 2 * b.le (o + 6) 2, b.le (o + 8) 4)

/-- The canvas positions per ns of a record's views. -/
def recCanvas (b : Blob) (o : Nat) : Nat × Nat :=
  let n := (recViews b o).foldl (fun (m v : Nat) => let w := o + 64 + 64 * v; m + max 1 (ifld b w 2 0 7) * b.le (w + 16) 2 * b.le (w + 18) 2) 0
  if b.le (o + 8) 4 = 0 then (0, 1) else (n, b.le (o + 8) 4)

/-- ENGINE_LOAD's counts: at most 32 streams on a decoder or front end; then DUAL_DECODE, VIEW_INVALID, TRACKER. -/
def ruleStreams (t : State) (b : Blob) : Option Rej :=
  let st := fun (e : Nat × Nat) => ifld b e.2 0 0 7
  ((List.range 4).findSome? (fun d => ((imgLive b).filter (fun e => (recDecoders b e.2).contains d))[32]?.map (fun e => rejAt 0x20 8 e 13 (st e))))
  |>.or ((List.range 4).findSome? (fun f => ((imgLive b).filter (fun e => decide (ifld b e.2 13 2 2 = f)))[32]?.map (fun e => rejAt 0x20 8 e 13 (st e))))
  |>.or ((imgLive b).findSome? (fun e => refuseIf (ifld b e.2 13 4 1 == 1 && !(imgClassS b (ifld b e.2 12 0 4))) (rejAt 0x21 8 e 13 (st e))))
  |>.or ((imgLive b).findSome? (fun e => (recViews b e.2).findSome? (fun v => refuseIf (!(t.viewOk (st e) v)) (rejAt 0x22 8 e (64 + 64 * v) (st e)))))
  |>.or ((imgLive b).findSome? (fun e => refuseIf (imgClassS b (ifld b e.2 12 0 4) && ifld b e.2 320 0 1 == 1 && ifld b e.2 320 1 1 == 0) (rejAt 0x23 8 e 320 (st e))))

/-- BINDING. -/
def ruleBindings (t : State) (b : Blob) : Option Rej :=
  refuseIf (decide (4096 < (imgBinds b).length)) { code := 0x24, sect := 8, item := 4096, off := sectOff b 8 + 2 }
  |>.or ((imgBinds b).findSome? (fun e =>
      let v := b.le e.2 32
      let st := seqStream v
      refuseIf (!(t.stValid st) || decide (t.stPart st ≠ seqPart v) || !(t.vwValid st (seqView v)) || decide (bits v 192 14 ≠ t.fld (Reg.colStrmCfg st) 0 14))
        (rejAt 0x24 8 e 0 st)))

/-! ### POWER and the image region -/

/-- The domain of a scratchpad bank, and of a stream memory bank. -/
def bankPd (c k : Nat) : Nat := 64 + 16 * c + k

/-- POWER_DOMAIN. -/
def rulePower (t : State) (b : Blob) : Option Rej :=
  let o := sectOff b 10
  let rej := fun (d : Nat) => some ({ code := 0x25, sect := 10, off := o + 64 + d / 4 } : Rej)
  let sb := (imgPartsS b).foldl (fun (m : Nat) e => m ||| b.le (e.2 + 40) 2) 0
  let isSb := fun (c k : Nat) => decide (imgStandby b = some (c / 2)) && sb.testBit k
  let bank := (List.range 128).find? (fun i =>
    let c := i / 16
    let k := i % 16
    let owned := (List.range 17).any (fun p => (t.scratchMask p c).testBit k)
    if isSb c k then decide (pdInit b (bankPd c k) ≠ 0) else owned && decide (pdInit b (bankPd c k) = 0))
  let sbank := (List.range 32).find? (fun k => (List.range 17).any (fun p => (t.streamMask p).testBit k) && decide (pdInit b (192 + k) = 0))
  let arr := (List.range 64).find? (fun d => t.pdFused d && decide (pdInit b d ≠ 0))
  match bank, sbank, arr with
  | some i, _, _ => rej (64 + i)
  | none, some k, _ => rej (192 + k)
  | none, none, some d => rej d
  | none, none, none => if pdInit b 252 ≠ 0 then rej 252 else none

/-- Is every 64-byte unit of the image region in a retained rank? The region lies within one combination of the address bits above it, so its units reach every channel, and the ranks that RANK's mask gives. -/
def regionRetained (b : Blob) : Bool :=
  let o := sectOff b 14
  let m := bodyHash b o 6
  let base := b.le (sectOff b 1 + 8) 8
  let ranks := if m % 2 ^ 26 ≠ 0 then [0, 1] else [popCount 36 (base &&& m) % 2]
  let chans := (List.range 4).filter (fun x => (b.le o 1).testBit x)
  chans.all (fun x => ranks.all (fun r => (b.le (o + 4) 1).testBit (2 * x + r)))
    && decide (base + 2 ^ 26 ≤ 2 ^ bodyBits b o) && decide (base % 2 ^ 26 = 0)

/-- The DRAM body of an image. -/
def dramBody (b : Blob) : Blob := b.slice (sectOff b 14) 128

/-- IMAGE_REGION, and DRAM_CHANGE for a RESTRUCTURE. -/
def ruleRegion (s : State) (b : Blob) (restructure : Bool) : Option Rej :=
  refuseIf (!(regionRetained b)) { code := 0x28, sect := 1, off := sectOff b 1 + 8 }
  |>.or (refuseIf (restructure && decide (s.sec.trained ≠ some (dramBody b))) { code := 0x29, sect := 14, off := sectOff b 14 })

/-! ### The class S fit (R302, R303, R362) -/

/-- BUDGET: for each pair that a class S partition uses, the budget plus 40 µs within 50 µs times its slots; 0 where it has none. -/
def ruleBudget (b : Blob) : Option Rej :=
  (imgPartsS b).findSome? (fun e =>
    let p := ifld b e.2 0 0 4
    (List.range 4).findSome? (fun k =>
      let n := imgSlots b (2 * k) p
      let bud := b.le (e.2 + 32 + 2 * k) 2
      refuseIf (if n = 0 then decide (bud ≠ 0) else decide (50 * n < bud + 40)) (rejAt 0x11 2 e (32 + 2 * k) p)))

/-- ENGINE_LOAD's rates of class S streams, exact: rate × W × 100 ≤ 69 × W_S, and canvas × 100 ≤ 103, in pixels per ns. -/
def ruleRates (b : Blob) : Option Rej :=
  let ss := imgStreamsS b
  let w := fun (e : Nat × Nat) => orDefault (b.le (e.2 + 384) 1) 1
  let dec := fun (d : Nat) =>
    let here := (imgLive b).filter (fun e => (recDecoders b e.2).contains d)
    let hs := ss.filter (fun e => (recDecoders b e.2).contains d)
    let all := here.foldl (fun (n : Nat) e => n + w e) 0
    let sw := hs.foldl (fun (n : Nat) e => n + w e) 0
    let r := hs.foldl (fun x e => fracAdd x (recRate b e.2)) (0, 1)
    !hs.isEmpty && decide (69 * sw * r.2 < 100 * r.1 * all)
  let fe := fun (f : Nat) =>
    let r := (ss.filter (fun e => (recFrontEnds b e.2).contains f)).foldl (fun x e => fracAdd x (recCanvas b e.2)) (0, 1)
    decide (103 * r.2 < 100 * r.1)
  ((List.range 4).find? dec).map (fun d => ({ code := 0x20, sect := 8, off := sectOff b 8, detail := d } : Rej))
  |>.or (((List.range 4).find? fe).map (fun f => ({ code := 0x20, sect := 8, off := sectOff b 8, detail := f } : Rej)))

/-- CAP_BELOW_S. -/
def ruleCap (b : Blob) : Option Rej :=
  refuseIf (!(imgPartsS b).isEmpty && decide (orDefault (b.le (sectOff b 10) 4) 28000 < imgCapMin b)) { code := 0x13, sect := 10, off := sectOff b 10 }

/-! ### The order of R361 -/

/-- Steps 5 and 6 over a state in which the sections' grants have been applied. -/
def checkRules (s : State) (b : Blob) (restructure : Bool) : Option Rej :=
  let t := (s.applyDram b (sectOff b 14)).applyGrants b
  (rulePartitions b) |>.or (ruleFences b) |>.or (ruleCores s b) |>.or (ruleStandby s b) |>.or (ruleBandwidth t b)
  |>.or (ruleRanges b) |>.or (ruleQueueOwner t b) |>.or (rulePolicy b) |>.or (rulePools t b) |>.or (ruleSources b)
  |>.or (ruleStreams t b) |>.or (ruleBindings t b) |>.or (rulePower t b) |>.or (ruleRegion s b restructure)
  |>.or (ruleBudget b) |>.or (ruleRates b) |>.or (ruleCap b)

/-- Steps 1 to 3 and the DRAM body: what pass 1 checks (Table 16.3). The second part is SEC_VERIFY, the third whether step 2 refused. -/
def checkFirst (s : State) (b : Blob) : Option Rej × Nat :=
  match checkHeader s b b.len with
  | some r => (some r, s.rd Reg.secVerify)
  | none =>
    match checkSig s b with
    | (some r, v) => (some r, v)
    | (none, v) => ((checkTable b).or (checkDram b), v)

/-- Every check of R361. -/
def checkImage (s : State) (b : Blob) (restructure : Bool) : Option Rej × Nat :=
  match checkHeader s b b.len with
  | some r => (some r, s.rd Reg.secVerify)
  | none =>
    match checkSig s b with
    | (some r, v) => (some r, v)
    | (none, v) => ((checkTable b).or ((checkSections b).or (checkRules s b restructure)), v)

end Sys2Proof.Machine
end

