-- ==== Sys2Proof/Machine/Package.lean ====
section
/-!
DEFINITION. Kerec model packages: form, signature, operator checks, quantisation into the model window, load status (R166 to R169, R180 to R192, R368, R369, R401, R402).
-/
namespace Sys2Proof.Machine

/-! ### Form (Tables 15.16, 15.17) -/

/-- The offset of operator entry `k`. -/
def opAt (b : Blob) (k : Nat) : Nat := b.le 16 4 + 64 * k
/-- The block of operator `k` (Table 8.2). -/
def opBlock (b : Blob) (k : Nat) : Nat := b.le (opAt b k) 32
/-- A byte of the block. -/
def opByte (b : Blob) (k i : Nat) : Nat := b.le (opAt b k + i) 1
/-- A field of the entry. -/
def opFld (b : Blob) (k off n : Nat) : Nat := b.le (opAt b k + off) n
/-- Channels in, and out. -/
def opCin (b : Blob) (k : Nat) : Nat := opFld b k 34 2
/-- Channels out. -/
def opCout (b : Blob) (k : Nat) : Nat := opFld b k 36 2
/-- Groups. -/
def opGroups (b : Blob) (k : Nat) : Nat := max 1 (opFld b k 12 2)

/-- Are the header, tables and offsets of a package in form? `n` bytes were supplied. -/
def pkgForm (b : Blob) (n : Nat) : Bool :=
  let len := b.le 8 4
  let ends := fun (o size cnt : Nat) => decide (128 ≤ b.le o 4) && decide (b.le o 4 + size * cnt ≤ len)
  let stage := fun (g : Nat) => let o := b.le 20 4 + 8 * g; decide (b.le o 1 ≤ b.le (o + 1) 1) && decide (b.le (o + 1) 1 < pkgOps b)
  decide (b.le 0 4 = 0x4345524B) && decide (b.le 4 1 = 1) && decide (b.le 5 1 = 0) && decide (1 ≤ b.le 6 2 ∧ b.le 6 2 ≤ 0xFFFE)
  && decide (len % 64 = 0) && decide (len = n) && decide (1 ≤ pkgOps b ∧ pkgOps b ≤ 256) && decide (1 ≤ pkgStages b ∧ pkgStages b ≤ 256)
  && ends 16 64 (pkgOps b) && ends 20 8 (pkgStages b) && ends 32 8 (b.le 36 1)
  && decide (b.le 24 4 + b.le 28 4 ≤ len) && decide (1 ≤ b.le 37 1 ∧ b.le 37 1 ≤ 64) && decide (b.le 38 1 ≤ 100) && decide (b.le 39 1 ≤ 1)
  && decide (b.le 80 48 = 0) && (List.range (pkgStages b)).all stage
  && (List.range (b.le 36 1)).all (fun (i : Nat) => decide (b.le (b.le 32 4 + 8 * i) 1 < pkgOps b))
  && (List.range (pkgOps b)).all (fun (k : Nat) =>
      decide (opFld b k 48 4 + opFld b k 52 4 ≤ b.le 28 4) && decide (opFld b k 56 4 + opFld b k 60 4 ≤ b.le 28 4) && decide (opFld b k 45 3 = 0))

/-! ### Signature (Table 17.3) -/

/-- What Table 17.3 gives: 0 loaded, 1 refused unsigned or unnamed, 2 signature refused. `img` is the image in force. -/
def pkgSignature (img : Blob) (p : Nat) (b : Blob) : Nat :=
  let o := sectOff img 13
  let policy := if hasSect img 13 then img.le (o + 2 * p) 2 else 0
  let signed := b.le 39 1 % 2 == 1
  if !signed then (if policy.testBit 0 then 1 else 0)
  else
    let sig := b.len - 128
    let named := (imgKeys img).find? (fun e => decide (img.le e.2 1 = b.le (sig + 4) 1) && (policy >>> 8).testBit e.1)
    match named with
    | none => 1
    | some e =>
      let x := img.le (e.2 + 8) 32
      let y := img.le (e.2 + 40) 32
      if b.le sig 4 = 0x47495350 && onCurve x y && ecdsaVerify (some (x, y)) (beInt (sha256 (b.slice 0 sig))) (b.le (sig + 8) 32) (b.le (sig + 40) 32) then 0 else 2

/-! ### Paths (R188, R189) -/

/-- Is the fold asked for? -/
def opFold (b : Blob) (k : Nat) : Bool := decide (opByte b k 0 = 0x01) && (opByte b k 1).testBit 2
/-- The passes of a weight format. -/
def fmtPasses (f : Nat) : Nat := f + 1

/-- Does a CONV take the frequency path (R189)? C_F < C_D, both multiplied by 14,745.6 × 12 and so exact integers: the first term of C_F is (Ci + Co) × 320 / 1.20. -/
def opFreq (b : Blob) (k : Nat) : Bool :=
  let kh := opByte b k 4
  let kw := opByte b k 5
  let ci := 16 * ceilDiv (opCin b k) 16
  let co := 32 * ceilDiv (opCout b k) 32
  decide (opByte b k 0 = 0x01) && within 9 17 kh && within 9 17 kw && decide (opByte b k 6 = 0x11) && decide (opByte b k 7 = 0x11)
  && decide (opGroups b k = 1) && decide (32 ≤ opCin b k) && !((opByte b k 1).testBit 1) && !((opByte b k 1).testBit 2)
  && (let cD := (33 - kh) * (33 - kw) * ci * co * kh * kw * fmtPasses (opFld b k 42 1)
      let cF5 := (ci + co) * 320 * 147456 / 12 * 5 + 544 * ci * co * 6 * 5
      decide (cF5 < 5 * cD))

/-- The path code of Table 15.18. -/
def opPath (b : Blob) (k : Nat) : Nat :=
  if opFreq b k then 1
  else if opFold b k then 3
  else if (opByte b k 0 = 0x01) || (opByte b k 0 = 0x02) || (opByte b k 0 = 0x03) then 0
  else if opByte b k 0 = 0x10 ∧ 16 < opCin b k / opGroups b k then 0
  else 2

/-- The output size of an axis of a window operator. -/
def axisOut (n k s d p0 p1 : Nat) : Nat := (n + p0 + p1 - ((k - 1) * d + 1)) / s + 1

/-- The rewritten trailing pad of an axis: the one that leaves the output size unchanged. -/
def foldTrail (n k p pt f : Nat) : Int :=
  ((axisOut n k f 1 p pt : Nat) : Int) - 1 - (n / f : Nat) - (ceilDiv p f : Nat) + (foldK k p f : Nat)

/-! ### Shapes (GRAPH) -/

/-- The output size of operator `k`: height, width. -/
def opOut (b : Blob) (k : Nat) : Nat × Nat :=
  let h := opFld b k 38 2
  let w := opFld b k 40 2
  let x := fun (i : Nat) => opByte b k i
  let lo := fun (v : Nat) => max 1 (v % 16)
  let hi := fun (v : Nat) => max 1 (v / 16)
  match x 0 with
  | 0x01 => (axisOut h (x 4) (lo (x 6)) (lo (x 7)) (x 8) (x 10), axisOut w (x 5) (hi (x 6)) (hi (x 7)) (x 9) (x 11))
  | 0x10 => (axisOut h (x 4) (lo (x 6)) (lo (x 7)) (x 8) (x 10), axisOut w (x 5) (hi (x 6)) (hi (x 7)) (x 9) (x 11))
  | 0x11 => (axisOut h (x 4) (lo (x 6)) 1 (x 8) (x 10), axisOut w (x 5) (hi (x 6)) 1 (x 9) (x 11))
  | 0x12 => (1, 1)
  | 0x13 => (opFld b k 18 2, opFld b k 20 2)
  | 0x19 => (x 18, x 19)
  | 0x1B => let f := max 1 (opFld b k 18 2); if x 3 = 0 then (h / f, w / f) else (h * f, w * f)
  | 0x1C => if x 3 = 1 then (w, h) else (h, w)
  | _ => (h, w)

/-- Do the inputs of operator `k` name earlier operators of the same shape? MATMUL_RT's operands are shaped by heads and rows. -/
def graphOk (b : Blob) (k : Nat) : Bool :=
  let i0 := opByte b k 32
  let i1 := opByte b k 33
  let rt := fun (j : Nat) => decide (opByte b j 0 = 0x03)
  (i0 == 0xFF || (decide (i0 < k) && (rt k || rt i0 || (decide (opCout b i0 = opCin b k) && opOut b i0 == (opFld b k 38 2, opFld b k 40 2)))))
  && (i1 == 0xFF || (decide (i1 < k) && (decide (opByte b k 0 ≠ 0x14) || rt i1
      || (decide (opCout b i1 = opCin b k) && (opOut b i1 == if (opByte b k 1).testBit 3 then (1, 1) else (opFld b k 38 2, opFld b k 40 2))))))

/-! ### Weights (R184, R188, R191, R192) -/

/-- A weight of the package's tensor by its place, widened to FP32. -/
def wElem (b : Blob) (k i : Nat) : Nat :=
  let v := b.le (b.le 24 4 + opFld b k 48 4 + 2 * i) 2
  if (opFld b k 44 1).testBit 1 then bf16to32 v else fp16to32 v

/-- The weight of output `n`, group channel `c`, kernel place (y, x) of a CONV or DWCONV tensor (Cout, Cin / groups, kh, kw). -/
def wConv (b : Blob) (k n c y x : Nat) : Nat :=
  let g := max 1 (opCin b k / opGroups b k)
  wElem b k (((n * g + c) * opByte b k 4 + y) * opByte b k 5 + x)

/-- The K order of an operator: the K indices of a column, and the weight at one of them; none where a padded channel takes the code zp (R182, R184, R188). -/
def kLen (b : Blob) (k : Nat) : Nat :=
  let g := max 1 (opCin b k / opGroups b k)
  if opByte b k 0 = 0x02 then opCin b k
  else if opByte b k 0 = 0x10 ∧ g ≤ 16 then opByte b k 4 * opByte b k 5 * g
  else if opFold b k then
    let f := max 1 (opFld b k 18 2)
    foldK (opByte b k 4) (opByte b k 8) f * foldK (opByte b k 5) (opByte b k 9) f * 16 * ceilDiv (f * f * opCin b k) 16
  else opByte b k 4 * opByte b k 5 * 16 * ceilDiv g 16

/-- The weight at K index `i` of output `n` on the folded path. -/
def wFold (b : Blob) (k n i : Nat) : Option Nat :=
  let f := max 1 (opFld b k 18 2)
  let c' := i % (16 * ceilDiv (f * f * opCin b k) 16)
  let tap := i / (16 * ceilDiv (f * f * opCin b k) 16)
  let kw' := foldK (opByte b k 5) (opByte b k 9) f
  if f * f * opCin b k ≤ c' then none
  else
    let d := c' / opCin b k
    let src := fun (a dd p : Nat) => ((f * a + dd + p : Nat) : Int) - ((f * ceilDiv p f : Nat) : Int)
    let ky := src (tap / kw') (d / f) (opByte b k 8)
    let kx := src (tap % kw') (d % f) (opByte b k 9)
    if 0 ≤ ky ∧ ky < (opByte b k 4 : Nat) ∧ 0 ≤ kx ∧ kx < (opByte b k 5 : Nat) then some (wConv b k n (c' % opCin b k) ky.toNat kx.toNat) else some 0

/-- The weight at K index `i` of output `n` on the direct and vector paths, and on the folded path. -/
def wAt (b : Blob) (k n i : Nat) : Option Nat :=
  let g := max 1 (opCin b k / opGroups b k)
  if opByte b k 0 = 0x02 then some (wElem b k (n * opCin b k + i))
  else if opFold b k then wFold b k n i
  else
    let run := if opByte b k 0 = 0x10 ∧ g ≤ 16 then g else 16 * ceilDiv g 16
    let c := i % run
    let tap := i / run
    if c < g then some (wConv b k n c (tap / opByte b k 5) (tap % opByte b k 5)) else none

/-- The spectrum of a filter: conj of its transform, zero-padded at the origin (R191); row u, column v. -/
def filterSpectrum (b : Blob) (k n c : Nat) : List (List Cpx) :=
  let x := (List.range 32).map (fun (r : Nat) => (List.range 32).map (fun (q : Nat) =>
    if r < opByte b k 4 ∧ q < opByte b k 5 then (wConv b k n c r q, 0) else (0, 0)))
  (fft2 x).map (fun r => r.map (fun z => (z.1, fpNeg z.2)))

/-- The three weight sets of bin (u, v): c, d − c, c + d for W = c + di (R169). -/
def wFreq (spec : List (List Cpx)) (u v set : Nat) : Nat :=
  let z := cAt ((spec[u]?).getD []) v
  match set with
  | 0 => z.1
  | 1 => fpSub z.2 z.1
  | _ => fpAdd z.1 z.2

/-! ### Quantised bytes -/

/-- The span of a weight group. -/
def opSpan (b : Blob) (k len : Nat) : Nat := match opFld b k 43 1 with | 1 => 64 | 2 => 128 | _ => max 1 len

/-- The K indices of one K step of operator `k` (R137). -/
def opStep (b : Blob) (k : Nat) : Nat := if opFld b k 43 1 = 1 then 64 else 128

/-- The products of operator `k`: one per group of a CONV, else one (R197). -/
def opProducts (b : Blob) (k : Nat) : Nat := if opByte b k 0 = 0x01 then opGroups b k else 1

/-- One column quantised in groups: codes by K index and a parameter word per group; none is QUANT_SCALE_RANGE. -/
def quantColumn (bitsN span len : Nat) (w : Nat → Option Nat) : Option (List Nat × List Nat) :=
  (List.range (ceilDiv len span)).foldl (fun (acc : Option (List Nat × List Nat)) (q : Nat) =>
    match acc with
    | none => none
    | some (cs, ps) =>
      let idx := (List.range (min span (len - q * span))).map (fun (i : Nat) => q * span + i)
      let real := idx.filterMap w
      match quantGroup bitsN real with
      | none => none
      | some g =>
        let place := idx.foldl (fun (x : List Nat × List Nat) (i : Nat) => match w i with
          | some _ => (x.1 ++ [x.2.headD 0], x.2.drop 1)
          | none => (x.1 ++ [g.zp], x.2)) ([], g.codes)
        some (cs ++ place.1, ps ++ [g.scale + g.zp <<< 16])) (some ([], []))

/-- Numbers of `n` bits packed in order. -/
def packBits (n : Nat) (l : List Nat) : Nat := (l.foldl (fun (x : Nat × Nat) (v : Nat) => (x.1 + (v % 2 ^ n) <<< x.2, x.2 + n)) (0, 0)).1

/-- The values of a list; none when one of them is missing. -/
def allSome {α : Type} : List (Option α) → Option (List α)
  | [] => some []
  | none :: _ => none
  | some x :: l => match allSome l with | some y => some (x :: y) | none => none

/-- The weights of one K range of a 32-column block, K indices `at_` to `at_ + n - 1`: codes in K order with columns innermost, K in whole blocks with the code zp past the operator's K (R165), then the parameters by group and column (log entries 22 and 30). -/
def rangeBlob (bitsN span at_ n : Nat) (cols : List (List Nat × List Nat)) : Blob :=
  let zp := fun (c : List Nat × List Nat) => (c.2.getLast?).getD 0 >>> 16
  let codes := (List.range (16 * ceilDiv n 16)).flatMap (fun (i : Nat) => cols.map (fun c => if i < n then (c.1[at_ + i]?).getD (zp c) else zp c))
  let params := (List.range (ceilDiv (at_ + n) span - at_ / span)).flatMap (fun (q : Nat) => cols.map (fun c => (c.2[at_ / span + q]?).getD 0))
  Blob.append { len := bitsN * codes.length / 8, val := packBits bitsN codes } { len := 4 * params.length, val := packBits 32 params }

/-- The weight sets of a 32-column block (`w set n i`: set, column, K index), K range by K range, and within a range set by set; none is QUANT_SCALE_RANGE. -/
def quantBlock (bitsN span step len sets : Nat) (w : Nat → Nat → Nat → Option Nat) : Option Blob :=
  let r := max 1 (kRange bitsN sets step len)
  match allSome ((List.range sets).map (fun (set : Nat) => allSome ((List.range 32).map (fun (n : Nat) => quantColumn bitsN span len (w set n))))) with
  | none => none
  | some blocks => some ((List.range (ceilDiv len r)).foldl (fun (x : Blob) (j : Nat) =>
      blocks.foldl (fun y cols => Blob.append y (rangeBlob bitsN span (j * r) (min r (len - j * r)) cols)) x) Blob.empty)

/-- Blocks joined; none when one is refused. -/
def joinBlobs (l : List (Option Blob)) : Option Blob := (allSome l).map (fun l => l.foldl Blob.append Blob.empty)

/-- Does operator `k` hold weights? -/
def opWeights (b : Blob) (k : Nat) : Bool := decide (opFld b k 42 1 ≠ 0xFF) && (opByte b k 0 == 0x01 || opByte b k 0 == 0x02 || opByte b k 0 == 0x10)

/-- The quantised bytes of operator `k`; none is QUANT_SCALE_RANGE. -/
def opQuant (b : Blob) (k : Nat) : Option Blob :=
  if !(opWeights b k) then some Blob.empty
  else
    let per := opCout b k / opProducts b k
    let blocks := ceilDiv per 32
    if opFreq b k then
      let len := 16 * ceilDiv (opCin b k) 16
      joinBlobs ((List.range blocks).map (fun (nb : Nat) =>
        let spec := (List.range 32).map (fun (n : Nat) => if 32 * nb + n < opCout b k then (List.range (opCin b k)).map (fun (c : Nat) => filterSpectrum b k (32 * nb + n) c) else [])
        joinBlobs ((List.range 544).map (fun (φ : Nat) =>
          quantBlock 8 (opSpan b k len) (opStep b k) len 3 (fun set n i =>
            match (spec[n]?).getD [] |>.drop i with
            | sp :: _ => some (wFreq sp (φ % 32) (φ / 32) set)
            | [] => if i < opCin b k then some 0 else none)))))
    else
      joinBlobs ((List.range (opProducts b k * blocks)).map (fun (nb : Nat) =>
        quantBlock (wBits (opFld b k 42 1)) (opSpan b k (kLen b k)) (opStep b k) (kLen b k) 1 (fun _ n i =>
          let o := 32 * (nb % blocks) + n
          if o < per then wAt b k (nb / blocks * per + o) i else some 0)))

/-- Does the weight tensor of operator `k` hold a NaN or an infinity (R168)? -/
def opNonFinite (b : Blob) (k : Nat) : Bool := opWeights b k && nonFinite ((List.range (opFld b k 52 4 / 2)).map (fun (i : Nat) => wElem b k i))

/-! ### Checks in list order -/

/-- The code of operator `k` (Table 15.13), 0 accepted, in the order of the codes. -/
def opCode (b : Blob) (k : Nat) : Nat :=
  let op := opByte b k 0
  let f := opFld b k 18 2
  let strideOk := opByte b k 6 == f + 16 * f
  let heads := decide (op = 0x03) && decide (1024 < b.le 37 1 * f)
  if opInternal op || !(opListed op) then 0x43
  else if heads || !(opLimits (opBlock b k) (opCin b k) (opCout b k) (opFld b k 38 2) (opFld b k 40 2)) || decide (opFld b k 43 1 > 2)
      || (decide (opFld b k 42 1 > 2) && decide (opFld b k 42 1 ≠ 0xFF)) then 0x44
  else if opFold b k && (!strideOk || !(f == 2 || f == 4)) then 0x45
  else if opFold b k && (decide (foldTrail (opFld b k 38 2) (opByte b k 4) (opByte b k 8) (opByte b k 10) (max 1 f) < 0)
      || decide (foldTrail (opFld b k 40 2) (opByte b k 5) (opByte b k 9) (opByte b k 11) (max 1 f) < 0)) then 0x46
  else if opNonFinite b k then 0x47
  else if (opQuant b k).isNone then 0x48
  else if !(graphOk b k) then 0x49
  else 0

/-- Checked operators: per operator its code and quantised bytes, up to and with the first refused. -/
def opChecks (b : Blob) (k : Nat) : Nat → List (Nat × Blob)
  | 0 => []
  | n + 1 =>
    let c := opCode b k
    (c, if c = 0 then (opQuant b k).getD Blob.empty else Blob.empty) :: (if c = 0 then opChecks b (k + 1) n else [])

/-- Does a package bind an output of type TENSOR_REF: the operator that does? -/
def tensorRef (b : Blob) : Option Nat :=
  ((List.range (b.le 36 1)).find? (fun (i : Nat) => decide (b.le (b.le 32 4 + 8 * i + 1) 1 = 0x0C))).map (fun (i : Nat) => b.le (b.le 32 4 + 8 * i) 1)

/-! ### Loading -/

/-- The image in force, as it stands in its half of the image region. -/
def State.imageInForce (s : State) : Blob := { len := s.sec.imgLen, val := s.rdMem (s.sec.region + 0x2000000 * s.sec.half) s.sec.imgLen }

/-- The lowest place of `n` bytes in a partition's model window beside its loaded models (log entry 30). -/
def State.modelPlace (s : State) (p n : Nat) : Option Nat :=
  match (Tab.read (fun _ => []) s.cfg.windows p)[s.partFld p 42 0 8]? with
  | none => none
  | some w =>
    let mine := s.pln.models.filter (fun m => decide (m.part = p))
    let starts := w.1 :: mine.map (fun m => ceilDiv (m.base + m.bytes) 64 * 64)
    let ok := fun (a : Nat) => decide (w.1 ≤ a) && decide (a + n ≤ w.1 + w.2) && mine.all (fun m => !(overlap a (max 1 n) m.base (max 1 m.bytes)))
    (starts.filter ok).foldl (fun (r : Option Nat) (a : Nat) => match r with | some x => some (min x a) | none => some a) none

/-- The load-status buffer (Table 15.18). -/
def loadStatus (b : Blob) (code layer now : Nat) (es : List (Nat × Blob)) : Blob :=
  let head : Blob := { len := 16, val := code + layer <<< 8 + es.length <<< 32 + now <<< 64 }
  ((List.range es.length).zip es).foldl (fun (x : Blob) e =>
    Blob.append x { len := 8, val := opPath b e.1 + e.2.1 <<< 8 + (e.2.2.len % 2 ^ 32) <<< 32 }) head

/-- What a load comes to: load-status code, failing layer, mailbox result, the operators' entries. -/
def State.loadVerdict (s : State) (p : Nat) (b : Blob) : Nat × Nat × Nat × List (Nat × Blob) :=
  let sig := pkgSignature s.imageInForce p b
  if !(pkgForm b b.len) then (0x40, 0xFF, 9, [])
  else if sig = 1 then (0x41, 0xFF, 9, [])
  else if sig = 2 then (0x41, 0xFF, 0x0A, [])
  else if (s.model p (b.le 6 2)).isSome then (0x42, 0xFF, 9, [])
  else
    let es := opChecks b 0 (pkgOps b)
    match (List.range es.length).find? (fun (i : Nat) => match es[i]? with | some e => decide (e.1 ≠ 0) | none => false) with
    | some i => (match es[i]? with | some e => e.1 | none => 0, i, 9, es)
    | none =>
      match tensorRef b, s.classS p with
      | some k, true => (0x4A, k, 9, es)
      | _, _ =>
        let room := s.modelPlace p (es.foldl (fun (n : Nat) e => n + e.2.len) 0)
        let full := decide (16 ≤ (s.pln.models.filter (fun m => decide (m.part = p))).length)
        if room.isNone || full then (0x4B, 0xFF, 7, es) else (0, 0xFF, 0, es)

/-- The quantised operators written to the model window one after the other. -/
def State.writeOps (s : State) (a : Nat) : List (Nat × Blob) → State
  | [] => s
  | e :: t => State.writeOps (s.wrMem a e.2.len e.2.val) (a + e.2.len) t

/-- A package loaded for partition `p` (R369): verdict, window, load status at an IOVA of function `p`; the mailbox result. -/
def State.loadPackage (s : State) (p : Nat) (b : Blob) (status : Nat) : State × Nat :=
  let v := s.loadVerdict p b
  let st := loadStatus b v.1 v.2.1 s.now v.2.2.2
  let s1 := if v.1 = 0x41 then s.raise { idx := 17, unit := 0, bit := 1, part := some p, detail := 0x41 } else s
  let s2 := s1.hostPost p status st.len st.val false
  if v.2.2.1 ≠ 0 then (s2, v.2.2.1)
  else
    let n := v.2.2.2.foldl (fun (n : Nat) e => n + e.2.len) 0
    let base := (s.modelPlace p n).getD 0
    let m : Model := { part := p, handle := b.le 6 2, pkg := b, stages := pkgStages b, base := base, bytes := n, digest := (sha256 b).val }
    let s3 := s2.writeOps base v.2.2.2
    ({ s3 with pln := { s3.pln with models := s3.pln.models ++ [m] } }, 0)

end Sys2Proof.Machine
end

