-- ==== Sys2Proof/Machine/JobPlan.lean ====
section
/-!
DEFINITION. What planner firmware may write: the rules that bind a job's plan, and the job's life from plan to reject (R202, R204, R213, R215 to R219). The choices within these rules are the firmware's (Table 9.1, R177) and are operands of JOB_PLAN.
-/
namespace Sys2Proof.Machine

/-! ### Shapes (R217, R218) -/

/-- The operators of a stage. -/
def stageOps (b : Blob) (g : Nat) : List Nat := (List.range (pkgLastOp b g + 1 - pkgFirstOp b g)).map (fun i => pkgFirstOp b g + i)

/-- The run-time extents that the operators of a stage use: those with an M that varies (Table 15.17). -/
def stageExtents (b : Blob) (g : Nat) : List Nat :=
  (((stageOps b g).filter (fun k => decide (bits (pkgOp b k 44 1) 4 1 = 0))).map (fun k => bits (pkgOp b k 44 1) 2 2)).eraseDups

/-- Is a run-time extent that the stage uses zero (R217)? -/
def zeroExtent (b : Blob) (g : Nat) (ext : List Nat) : Bool := (stageExtents b g).any (fun i => decide ((ext[i]?).getD 1 = 0))

/-- Does the run-time shape of a stage exceed the planned one (R218)? -/
def exceedsPlan (b : Blob) (g : Nat) (ext : List Nat) : Bool := (stageExtents b g).any (fun i => decide (pkgPlanned b i < (ext[i]?).getD 0))

/-- Is a job's present stage grow-allowed (Table 15.17)? -/
def growAllowed (b : Blob) (g : Nat) : Bool := (pkgOp b (pkgFirstOp b g) 44 1).testBit 0

/-- The run-time extents of a job: those of its JOB entry, or what the planner finds for a job of streams. -/
def jobExtents (j : Job) (ext : List Nat) : List Nat :=
  match j.entry with
  | some e => [20, 22, 24, 26].map (fun o => bits e.toNat (8 * o) 16)
  | none => ext

/-! ### The estimate (R219) -/

/-- A time of `beats` at 0.62 Gbeat/s, `steps` at 0.83 Gstep/s and `lat` tenths of a ns in units of 10 ns, rounded up. -/
def estUnits (beats steps lat : Nat) : Nat := ceilDiv (beats * 1000 * 83 + lat * 62 * 83 + steps * 1000 * 62) 514600

/-- The bounds of the planner's estimate of phases 3 and 4: beats, drain tail, latency and epilogue of a matrix tile; the beats of a complex tile, with or without their drain tail; the steps of a vector-only tile; none where the manual states no steps. -/
def Tile.estRange (t : Tile) : Option (Nat × Nat) :=
  match t.vecSteps with
  | none => none
  | some n =>
    if t.kind = 0 then some (estUnits t.beatCount n 894, estUnits t.beatCount n 894)
    else if t.kind = 1 then some (estUnits t.beatCount 0 0, estUnits t.beatCount 0 194)
    else some (estUnits 0 n 0, estUnits 0 n 0)

/-- Is est within the rule: the estimate, and at most 40 µs? -/
def Tile.estOk (t : Tile) : Bool :=
  decide (t.est ≤ 4000) && (match t.estRange with | some r => decide (r.1 ≤ t.est) && decide (t.est ≤ r.2) | none => true)

/-- The sums of est along the chains of a core's tiles stay within 40 µs. -/
def chainsOk : Nat → List Tile → Bool
  | _, [] => true
  | sum, t :: l => decide (sum + t.est ≤ 4000) && chainsOk (if t.chain then sum + t.est else 0) l

/-! ### Loop order, K ranges and M bands (R215, R216) -/

/-- A tile of a product with stored weights. -/
def Tile.stored (t : Tile) : Bool := decide (t.kind = 0) && !(t.op == 0x03)

/-- The largest K range whose codes and parameters of one N block fit a weight-stage buffer, in whole K steps (R134, Table 6.2). -/
def Tile.kFit (t : Tile) : Nat := kRange (wBits t.fmt) 1 t.kStep t.opK

/-- Do two tiles share an N block and a K range of one layer? -/
def sameWeights (a b : Tile) : Bool :=
  decide (a.layer = b.layer) && decide (a.nBlock = b.nBlock) && decide (a.kFirst = b.kFirst) && decide (a.kCount = b.kCount)

/-- Of two consecutive tiles of a core the second reuses the weights that both share, and loads others. -/
def reuseOk : List Tile → Bool
  | a :: b :: l => (if b.stored then (if a.stored && sameWeights a b then decide (b.wSrc = 1) else decide (b.wSrc = 0)) else true) && reuseOk (b :: l)
  | [a] => !a.stored || decide (a.wSrc ≤ 1)
  | [] => true

/-- Numbers in runs: no number comes back after another. -/
def inRuns : List Nat → Bool
  | a :: b :: l => (decide (a = b) || !(l.contains a)) && inRuns (b :: l)
  | _ => true

/-- The K ranges of one band of one N block: the fewest that fit, contiguous and ascending, all but the last written as partial sums that the next one starts from. -/
def kRangesOk : Nat → List Tile → Bool
  | _, [] => true
  | at_, [t] => decide (t.kFirst = at_) && !t.partialOut && decide (16 * ceilDiv (t.kFirst + t.kCount) 16 = t.opK) && decide (t.preload = decide (0 < at_))
  | at_, a :: b :: l => decide (a.kFirst = at_) && a.partialOut && decide (a.preload = decide (0 < at_)) && decide (b.f 20 0 22 = a.outAddr % 2 ^ 22)
      && kRangesOk (a.kFirst + a.kCount) (b :: l)

/-- Bands of one N block on one core: of equal size but for a ragged last one, and on alternate halves where their rows exceed one half (R216). -/
def bandsOk (total cap : Nat) : List Tile → Bool
  | a :: b :: l => (decide (a.mCount = b.mCount) || (l.isEmpty && decide (b.mCount ≤ a.mCount)))
      && (decide (total ≤ cap) || decide (a.claim &&& b.claim = 0)) && bandsOk total cap (b :: l)
  | _ => true

/-- The tiles of one layer and N block on one core. -/
def blockOk (l : List Tile) : Bool :=
  match l with
  | [] => true
  | t :: _ =>
    let firsts := (l.map (fun x => x.mFirst)).eraseDups
    let band := fun (m : Nat) => l.filter (fun x => decide (x.mFirst = m))
    let heads := l.filter (fun x => decide (x.kFirst = 0))
    inRuns (l.map (fun x => x.mFirst)) && firsts.all (fun m => kRangesOk 0 (band m) && decide ((band m).length = ceilDiv t.opK (max 1 t.kFit)))
      && bandsOk ((heads.map (fun x => x.mCount)).sum) (1024 * t.n) heads

/-- The tiles that a plan gives one core, in the order of their descriptors. -/
def coreOk (l : List Tile) : Bool :=
  let m := l.filter (fun t => t.stored)
  let layers := (m.map (fun t => t.layer)).eraseDups
  chainsOk 0 l && l.all (fun t => t.estOk) && reuseOk l
    && layers.all (fun y =>
      let ly := m.filter (fun t => decide (t.layer = y))
      inRuns (ly.map (fun t => t.nBlock)) && ((ly.map (fun t => t.nBlock)).eraseDups).all (fun n => blockOk (ly.filter (fun t => decide (t.nBlock = n)))))

/-! ### Fusion groups (R180, R202, R204) -/

/-- Is operator `k` bandable (Table 8.1)? -/
def opBandable (b : Blob) (k : Nat) : Bool :=
  let op := opByte b k 0
  if op = 0x01 then !opFreq b k
  else if op = 0x1C then decide (opByte b k 3 = 0)
  else [0x02, 0x10, 0x11, 0x13, 0x14, 0x15, 0x16, 0x17, 0x18, 0x1A, 0x1B].contains op

/-- Has an operator a window that moves by strides? -/
def opWindow (b : Blob) (k : Nat) : Bool := [0x01, 0x10, 0x11].contains (opByte b k 0)

/-- Rows of an operator's input that its line buffer keeps from the previous band: (kh − 1) × dh − (sh − 1), floored at 0 (R202). -/
def lineRows (b : Blob) (k : Nat) : Nat :=
  if opWindow b k then (opByte b k 4 - 1) * max 1 (opByte b k 7 % 16) - (max 1 (opByte b k 6 % 16) - 1) else 0

/-- Bytes of an operator's line buffer. -/
def groupLineBytes (b : Blob) (k : Nat) : Nat := lineRows b k * opFld b k 40 2 * ceilDiv (opCin b k) 16 * 32

/-- Columns of its input that an operator reads, and needs beside what neighbouring strips read, for `c` output columns and `d` needed ones (R204). -/
def stripIn (b : Blob) (k c d : Nat) : Nat × Nat :=
  let sw := max 1 (opByte b k 6 / 16)
  if opWindow b k then ((c - 1) * sw + (opByte b k 5 - 1) * (if opByte b k 0 = 0x11 then 1 else max 1 (opByte b k 7 / 16)) + 1, d * sw)
  else if opByte b k 0 = 0x13 then (ceilDiv (c * opFld b k 40 2) (max 1 (opFld b k 20 2)) + 1, ceilDiv (d * opFld b k 40 2) (max 1 (opFld b k 20 2)))
  else if opByte b k 0 = 0x1B then
    let f := max 1 (opFld b k 18 2)
    if opByte b k 3 = 0 then (f * c, f * d) else (ceilDiv c f, ceilDiv d f)
  else (c, d)

/-- Columns that the operators of a strip compute, and those needed, summed over the operators from the last back to the first: `c` and `d` are the last one's. -/
def stripSums (b : Blob) (c d : Nat) : List Nat → Nat × Nat
  | [] => (0, 0)
  | k :: l =>
    let r := stripIn b k c d
    let x := stripSums b r.1 r.2 l
    (c + x.1, d + x.2)

/-- Is the recomputed fraction of a strip within the package's fusion limit, 25 % by default (R204)? -/
def stripOk (b : Blob) (ops : List Nat) (cols : Nat) : Bool :=
  let limit := if b.le 38 1 = 0 then 25 else b.le 38 1
  let x := stripSums b cols cols ops.reverse
  decide (100 * (x.1 - x.2) ≤ limit * x.2)

/-- A fusion group: bandable operators with line buffers within `room` bytes of scratchpad, and strips within the limit; or a single operator. -/
def groupOk (b : Blob) (room : Nat) (ops : List Nat) (strip : Nat) : Bool :=
  decide (ops.length ≤ 1) || (ops.all (fun k => opBandable b k)
    && decide (((ops.drop 1).map (fun k => groupLineBytes b k)).sum ≤ room) && (decide (strip = 0) || stripOk b ops strip))

/-- The groups of a plan take the operators of the stage in order. -/
def groupsOk (b : Blob) (room : Nat) : List Nat → List PlanGroup → Bool
  | ops, [] => ops.isEmpty
  | ops, g :: l => decide (0 < g.ops) && decide (g.ops ≤ ops.length) && groupOk b room (ops.take g.ops) g.strip && groupsOk b room (ops.drop g.ops) l

/-! ### Plans -/

/-- The tile of a planned descriptor. -/
def planned (x : PlanTile) : Tile := { desc := x.desc, facts := x.facts }

/-- The scratchpad that a partition owns on the cores of a plan: the least of them. -/
def State.planRoom (s : State) (p : Nat) (plan : List PlanTile) : Nat :=
  plan.foldl (fun (m : Nat) x => min m (0x40000 * popCount 16 (s.scratchMask p x.core.val))) 0x400000

/-- Does a plan keep the rules that bind the planner: tiles of this job and stage, their estimates, loop order, K ranges, M bands and fusion groups? -/
def State.planOk (s : State) (j : Job) (b : Blob) (plan : List PlanTile) (groups : List PlanGroup) : Bool :=
  plan.all (fun x => let t := planned x
    decide (t.part = j.part) && decide (t.job = j.num % 4096) && decide (pkgFirstOp b j.stage ≤ t.layer) && decide (t.layer ≤ pkgLastOp b j.stage))
  && (List.range 8).all (fun c => coreOk ((plan.filter (fun x => decide (x.core.val = c))).map planned))
  && groupsOk b (s.planRoom j.part plan) (stageOps b j.stage) groups

/-- May a job be planned now: its partition processes and its wait is met (R332, R347)? -/
def State.jobMayRun (s : State) (j : Job) : Bool :=
  s.processing j.part && (match j.entry with
    | some e => s.waitMet (bits e.toNat (8 * 28) 16) (bits e.toNat (8 * 32) 64)
    | none => true)

/-- The tiles of a job that its cores hold; a locked pair holds each twice. -/
def State.tilesOf (s : State) (p num : Nat) : List Tile :=
  let l := (List.range 8).flatMap (fun c => if s.locked c && decide (c % 2 = 1) then [] else
    let k := s.core c
    k.fifo ++ k.closing ++ [k.wait1, k.prep, k.beats, k.vec].filterMap (fun o => o))
  l.filter (fun t => decide (t.part = p) && decide (t.job = num))

/-- A job whose rejected tiles call for it is planned again (R213): a new plan replaces every tile that no core holds; status and signals stay. -/
def State.rePlan (s : State) (j : Job) (tiles : Nat) : State :=
  let s1 := { s with pln := { s.pln with returned := s.pln.returned.filter (fun t => !(decide (t.part = j.part) && decide (t.job = j.num))) } }
  s1.updJob j.part j.num (fun x => { x with tilesLeft := (s.tilesOf j.part j.num).length + tiles, replan := 0 })

/-- JOB_PLAN (R206, R213, R215 to R219): zero extents and shapes above plan end at once; else the job's tiles stand planned, under the rules of the planner. `ext` is the run-time shape, `fits` whether the output fits the buffers reserved, `plan` and `groups` the planner's cut and `sigs` the job's completion signals. A cut that breaks a rule is none that a planner makes (log entry 7). -/
def State.jobPlan (s : State) (p num : Nat) (ext : List Nat) (fits : Bool) (plan : List PlanTile) (groups : List PlanGroup) (sigs : List (Nat × Nat)) : State :=
  match s.jobOf p num with
  | none => s
  | some j =>
    let pkg := match s.model p j.model with | some m => m.pkg | none => Blob.empty
    let e := jobExtents j ext
    let j1 := { j with sigs := sigs, planned := true, tilesLeft := plan.length }
    let above := exceedsPlan pkg j.stage e
    if !(s.jobMayRun j) then s
    else if j.planned then (if j.replan ≠ 0 ∧ s.planOk j pkg plan groups = true then s.rePlan j plan.length else s)
    else if zeroExtent pkg j.stage e then s.endJob { j1 with status := 0x01 }
    else if above && !(growAllowed pkg j.stage && fits) then (s.plnErr 1 p 0 0x10 num).endJob { j1 with status := 0x10 }
    else if !(s.planOk j pkg plan groups) then s
    else
      let j2 := if above then { j1 with status := 0x02 } else j1
      if plan.isEmpty then s.endJob j2 else s.updJob p num (fun _ => j2)

/-- TILE_REJECT_RESPONSE (R213): after a re-plan code the job is planned again; another code fails a class F job, whose signals are performed but for those that tiles on the cores still perform; in class S every reject is a detected fault. -/
def State.rejectResponse (s : State) : State :=
  match s.pln.rejects with
  | [] => s
  | r :: rest =>
    let s1 := { s with pln := { s.pln with rejects := rest } }
    let p := r.tile.part
    if s.classS p then s1.fault { cause := 0x03, subsys := 8, unit := r.core, part := some p }
    else if r.code = 0x06 ∨ r.code = 0x0B then s1.updJob p r.tile.job (fun j => { j with replan := j.replan + 1 })
    else
      match s1.jobOf p r.tile.job with
      | none => s1.signal (r.tile.f 124 0 16) (r.tile.f 126 0 8)
      | some j => s1.endJob { j with
          sigs := (s1.tilesOf p j.num).foldl (fun l t => takeSig (t.f 124 0 16) (t.f 126 0 8) l) j.sigs, status := 0x11, reject := r.code, tile := r.tile.ident }

end Sys2Proof.Machine
end

