-- ==== Sys2Proof/Machine/Mailbox.lean ====
section
/-!
DEFINITION. The management mailboxes: states, starting and ending a command, device-wide commands, aborts (R345, R346, Tables 14.8, 14.11, 14.12).
-/
namespace Sys2Proof.Machine

/-- MGMT_STATUS.state (Table 14.17): 0 BOOTING, 1 WAIT_IMAGE, 2 VERIFYING, 3 TRAINING, 4 INJECTING, 5 READY, 6 RESTARTING, 7 FAILED. -/
def State.devState (s : State) : Nat := s.fld Reg.mgmtStatus 0 4

/-- The state replaced. -/
def State.setDevState (s : State) (v : Nat) : State := s.setFld Reg.mgmtStatus 0 4 v

/-- The state of a mailbox: 0 IDLE, 1 BUSY, 2 DONE (Table 14.8). -/
def State.mbxState (s : State) (f : Nat) : Nat := s.fld (Reg.mgmtMbxStatus f) 0 2

/-- `n` bytes at offset `off` of a mailbox's arguments. -/
def State.mbxArg (s : State) (f off n : Nat) : Nat := bits (s.rdWords (Reg.mgmtMbxArg f) 16) (8 * off) (8 * n)

/-- A write that a BUSY mailbox ignores (R345). -/
def State.mbxIgnore (s : State) (f : Nat) : State :=
  (s.bump (Reg.mgmtMbxIgnored f) 1).raise { idx := 0, unit := f, bit := 3 }

/-- A command's end: DONE with its result, the tag kept; vector 0 fires (R339, R345). -/
def State.mbxDone (s : State) (f code result : Nat) : State :=
  let st := 2 + (s.fld (Reg.mgmtMbxStatus f) 8 8) <<< 8 + code <<< 16 + 100 <<< 24
  ((s.wr (Reg.mgmtMbxStatus f) st).wrWords (Reg.mgmtMbxResult f) 16 result).msix f 0

/-- The command that runs in a mailbox. -/
def State.mbxRun (s : State) (f : Nat) : Option MboxRun := Tab.read (fun _ => none) s.hep.mbox f

/-- The command that runs in a mailbox replaced. -/
def State.setMbx (s : State) (f : Nat) (r : Option MboxRun) : State :=
  { s with hep := { s.hep with mbox := Tab.write (fun _ => none) s.hep.mbox f r } }

/-- Does function `f` answer: does it exist, and is no reset asserted (R332, R371)? -/
def State.fnLive (s : State) (f : Nat) : Bool := decide (f < 16) && s.fnExists f && !s.pins.porLow && !s.pins.perstLow && !s.pwt.shutdown

/-- May a command run at all in the present state (R381, R382): in READY all; before it, NOP and GET_INFO, and SUPPLY_IMAGE in WAIT_IMAGE? -/
def State.mbxAllowed (s : State) (op : Nat) : Bool :=
  (decide (s.devState = 5) && op != 0x33) || op == 0x00 || op == 0x01 || (op == 0x33 && decide (s.devState = 1))

/-- Is the opcode one of Table 14.11? -/
def mbxKnown (op : Nat) : Bool :=
  [0x00, 0x01, 0x10, 0x11, 0x20, 0x21, 0x22, 0x23, 0x30, 0x31, 0x32, 0x33, 0x40, 0x41, 0x42].contains op

/-- Is the command issued by the PF alone (Table 14.11)? -/
def mbxPfOnly (op : Nat) : Bool := [0x30, 0x31, 0x32, 0x33, 0x41, 0x42].contains op

/-- Is the command device-wide? -/
def mbxDeviceWide (op : Nat) : Bool := op == 0x30 || op == 0x31 || op == 0x32

/-- Is another mailbox BUSY (R346)? -/
def State.otherBusy (s : State) (f : Nat) : Bool :=
  loopUp 16 (fun g b => b || (decide (g ≠ f) && decide (s.mbxState g = 1))) false

/-- Why a command ends at once: BAD_OPCODE, NOT_PERMITTED, WRONG_STATE, BUSY_ELSEWHERE; none where it starts. -/
def State.mbxRefusal (s : State) (f op : Nat) : Option Nat :=
  if !(mbxKnown op) then some 0x01
  else if mbxPfOnly op && decide (f ≠ 0) then some 0x02
  else if !(s.mbxAllowed op) then some 0x06
  else if mbxDeviceWide op && s.otherBusy f then some 0x05
  else none

/-- MGMT_MBX_CMD written (R345): a BUSY mailbox ignores it; else the state becomes BUSY with the tag, and a command that may not run ends at once. The second part says whether the command goes on. -/
def State.mbxStart (s : State) (f op tag : Nat) : State × Bool :=
  if !(s.fnLive f) then (s, false)
  else if s.mbxState f = 1 then (s.mbxIgnore f, false)
  else
    let s1 := s.wr (Reg.mgmtMbxStatus f) (1 + (tag % 256) <<< 8)
    match s.mbxRefusal f op with
    | some c => (s1.mbxDone f c 0, false)
    | none => (s1, true)

/-- A short command: its effect, then DONE. -/
def State.mbxShort (s : State) (f op tag : Nat) (act : State → State × Nat × Nat) : State :=
  let r := s.mbxStart f op tag
  if r.2 then
    let a := act r.1
    a.1.mbxDone f a.2.1 a.2.2
  else r.1

/-- A device-wide command takes every mailbox: BUSY with device_busy (R346). -/
def State.takeAll (s : State) (f : Nat) : State :=
  let s1 := loopUp 16 (fun g x =>
    if g = f then x.setFld (Reg.mgmtMbxStatus g) 2 1 1
    else x.wr (Reg.mgmtMbxStatus g) (putBits (x.rd (Reg.mgmtMbxStatus g)) 0 3 5)) s
  s1.setFld Reg.mgmtStatus 4 1 1

/-- Device_busy clears, and every other mailbox is as it was. -/
def State.freeAll (s : State) (f : Nat) (saved : List Nat) : State :=
  let s1 := loopUp 16 (fun g x => if g = f then x else x.wr (Reg.mgmtMbxStatus g) ((saved[g]?).getD 0)) s
  s1.setFld Reg.mgmtStatus 4 1 0

/-- A long or device-wide command: its effect, and the result that LONG_COMMAND_END publishes. -/
def State.mbxLong (s : State) (f op tag : Nat) (act : State → State × Nat × Nat) : State :=
  let saved := (List.range 16).map (fun (g : Nat) => s.rd (Reg.mgmtMbxStatus g))
  let arg := s.mbxArg f 0 2
  let r := s.mbxStart f op tag
  if r.2 then
    let a := act (if mbxDeviceWide op then r.1.takeAll f else r.1)
    a.1.setMbx f (some { opcode := op, code := a.2.1, result := a.2.2, deviceWide := mbxDeviceWide op, arg := arg, saved := saved })
  else r.1

/-- A long command that `pre` may refuse: a refusal ends it at once with a code and a result. -/
def State.mbxChecked (s : State) (f op tag : Nat) (pre : State → Option (Nat × Nat)) (act : State → State × Nat × Nat) : State :=
  let r := s.mbxStart f op tag
  if r.2 then
    match pre s with
    | some c => r.1.mbxDone f c.1 c.2
    | none => s.mbxLong f op tag act
  else r.1

/-- A spare row of calibration fuses. -/
def State.fuseRow (s : State) (k : Nat) : FuseRow := if k = 0 then s.sec.row0 else s.sec.row1

/-- A spare row replaced. -/
def State.setFuseRow (s : State) (k : Nat) (r : FuseRow) : State :=
  if k = 0 then { s with sec := { s.sec with row0 := r } } else { s with sec := { s.sec with row1 := r } }

/-- SEC_CAL_ROWS follows the fuses (Table 16.8). -/
def State.showCalRows (s : State) : State :=
  s.wr Reg.secCalRows (b2n s.sec.factoryGone + (b2n s.sec.row0.valid) <<< 1 + (b2n s.sec.row1.valid) <<< 2 + (b2n s.sec.row0.spent) <<< 3 + (b2n s.sec.row1.spent) <<< 4)

/-- Steps 2 to 4 of R386 end: a row that compares gets its valid fuse, and the factory block its invalidation fuse; another stays spent and invalid. -/
def State.calFinish (s : State) (m : MboxRun) : State :=
  if m.code = 0 then
    let s1 := s.setFuseRow m.arg { s.fuseRow m.arg with valid := true }
    { s1 with sec := { s1.sec with factoryGone := true } }.showCalRows
  else s.raise { idx := 18, unit := 0, bit := 7 }

/-- A running command aborted: it ends ABORTED, and device_busy clears (R346); a burn under R386 that has started is completed (Table 14.11). -/
def State.mbxAbort (s : State) (f : Nat) : State :=
  match s.mbxRun f with
  | none => s
  | some m =>
    let s0 := s.setMbx f none
    let s1 := if m.opcode = 0x31 then s0.calFinish m else s0
    let s2 := if m.deviceWide then s1.freeAll f m.saved else s1
    s2.mbxDone f 0x08 0

/-- RESTRUCTURE aborted: the image that was in force stays (R346, R367). -/
def State.abortRestructure (s : State) : State :=
  let s1 := { s with sec := { s.sec with staged := none } }
  match s1.mbxRun 0 with
  | some m => if m.opcode = 0x30 then s1.mbxAbort 0 else s1
  | none => s1

end Sys2Proof.Machine
end

