-- ==== Sys2Proof/Machine/SafetyIsland.lean ====
section
/-!
DEFINITION. The safety island's reactions: takeovers, the safe state, control pairs, the wait audit, periodic self-test, partitions that start and stop processing (R301, R308 to R311, R318 to R327, R332).
-/
namespace Sys2Proof.Machine

/-- An event of SAF_ERR: unit is a pair or resource coded as Table 13.10. -/
def State.safErr (s : State) (b unit cause : Nat) (p : Option Nat) : State :=
  s.raise { idx := 14, unit := unit, bit := b, part := p, detail := cause }

/-! ### Work that ends -/

/-- The class S frames of a list of (stream, counter) withdrawn with cause 7. -/
def State.withdrawUnits (s : State) (us : List PUnit) : State :=
  us.foldl (fun x u => if x.stClassS u.stream && x.frameOpen u.stream u.counter then x.withdraw u.stream u.counter 7 14 0 else x) s

/-- Jobs of a kind end TILE_FAILED; the class S frames of their batches are withdrawn (R310, R389). -/
def State.failJobs (s : State) (sel : Job → Bool) : State :=
  (s.pln.jobs.filter sel).foldl (fun x j => (x.withdrawUnits j.units).endJob { j with status := 0x12, entry := j.entry }) s

/-- Every open class S frame of some partitions withdrawn with cause 7 (R319). -/
def State.withdrawS (s : State) (sel : Nat → Bool) : State :=
  s.cfg.streams.foldl (fun x e => if x.stClassS e.1 && sel (x.stPart e.1) then x.withdrawOpen e.1 7 14 0 (x.frames e.1) else x) s

/-- Every open class F frame of some partitions to be closed with a cause. -/
def State.closeF (s : State) (sel : Nat → Bool) (cause : Nat) : State :=
  s.cfg.streams.foldl (fun x e => if !(x.stClassS e.1) && sel (x.stPart e.1) then x.closeAllLater e.1 cause (x.frames e.1) else x) s

/-! ### Safe state (R319, R320, R367) -/

/-- Safe-state entry: class S frames withdrawn with cause 7, class F frames closed with cause 3, a RESTRUCTURE aborted; the restart is due. A second choice while it is due changes nothing. -/
def State.enterSafe (s : State) : State :=
  if s.bitAt Reg.safStatus 2 then s
  else
    let s1 := ((s.setFld Reg.safStatus 2 1 1).bump Reg.safSafeCnt 1).safErr 12 0 0 none
    let s2 := { s1 with
      saf := { s1.saf with entries := s1.saf.entries ++ [s.now] },
      sec := { s1.sec with restart := 1, restartTb := s.now } }
    ((s2.withdrawS (fun _ => true)).closeF (fun _ => true) 3).abortRestructure

/-! ### Takeover of a core pair (R308, R309) -/

/-- The pair that stands by, free (R309). -/
def State.standbyPair (s : State) : Option Nat :=
  if s.bitAt Reg.safStatus 6 then none else (List.range 4).find? (fun k => decide (s.pairState k = 2))

/-- A pair marked suspect: no grant, arrays and vector engines off (R308). -/
def State.markSuspect (s : State) (k cause : Nat) (p : Option Nat) : State :=
  if s.pairState k = 3 then s
  else
    let s1 := (s.setFld Reg.safPairState (4 * k) 2 3).safErr 2 k cause p
    [2 * k, 2 * k + 1].foldl (fun x c => (loopUp 4 (fun a y => (y.unwait (4 * c + a)).turnOff (4 * c + a)) x).turnOff (224 + c)) s1

/-- The class S partitions that own slots of a pair. -/
def State.pairParts (s : State) (k : Nat) : List Nat :=
  (List.range 16).filter (fun p => s.classS p && s.holdsSlots (2 * k) p)

/-- The slot tables after a takeover: the class S entries of pair `k` at the same indices of pair `j`, nothing else on either pair (R309 step 2). -/
def State.moveSlots (s : State) (k j : Nat) : State :=
  let new := fun (c i : Nat) =>
    if c / 2 = k then 0xFF
    else if c / 2 = j then (let o := s.slotOwner (2 * k) i; if o ≠ 0xFF && s.classS o then o else 0xFF)
    else s.slotOwner c i
  let slots := loopUp 8 (fun c t => loopUp 20 (fun i (u : Tab Nat) => Tab.write (fun _ => 0xFF) u (20 * c + i) (new c i)) t) ([] : Tab Nat)
  { s with pln := { s.pln with slots := slots } }

/-- The standby bank set of a partition (Table 15.6, bytes 40 and 41). -/
def State.standbyBanks (s : State) (p : Nat) : Nat := s.partFld p 40 0 16

/-- A standby bank set switched on and granted on both standby cores (R309 step 3). -/
def State.banksOn (s : State) (j p : Nat) : State :=
  [2 * j, 2 * j + 1].foldl (fun x c =>
    let m := x.scratchMask p c ||| x.standbyBanks p
    let y := { x with cfg := { x.cfg with scratch := Tab.write (fun _ => 0) x.cfg.scratch (8 * p + c) m } }
    loopUp 16 (fun b z => if (x.standbyBanks p).testBit b then z.pdRequest (64 + 16 * c + b) 2 else z) y) s

/-- The work of the cores of a suspect pair is lost; their jobs end TILE_FAILED. -/
def State.dropCores (s : State) (k : Nat) : State :=
  [2 * k, 2 * k + 1].foldl (fun x c => x.updCore c (fun q => { q with fifo := [], wait1 := none, prep := none, beats := none, vec := none, closing := [], chainOpen := none, holder := none })) s

/-- The takeover of pair `k` by pair `j` (R309). -/
def State.takeover (s : State) (k j cause : Nat) : State :=
  let ps := s.pairParts k
  let s1 := [2 * j, 2 * j + 1].foldl (fun x c => (x.reclaim c 0xFE).setLock c true) s
  let s2 := (s1.setFld Reg.safPairState (4 * j) 2 1).moveSlots k j
  let s3 := ps.foldl (fun x p => x.banksOn j p) s2
  let s4 := ((s3.withdrawS (fun p => ps.contains p)).dropCores k).failJobs (fun jb => ps.contains jb.part && jb.planned)
  let s5 := (s4.setFld Reg.safStatus 6 1 1).safErr 3 k cause none
  let s6 := ps.foldl (fun x p => x.safRecord p 0x63 cause k j 0 0 none) s5
  s6.notifyLost

/-- A suspect pair: takeover when the standby pair is free, else the safe state (Table 13.6). -/
def State.suspectReaction (s : State) (k cause : Nat) (p : Option Nat) : State :=
  let s1 := s.markSuspect k cause p
  match s1.standbyPair with
  | some j => if j = k then s1.enterSafe else s1.takeover k j cause
  | none => s1.enterSafe

/-! ### Control pairs (R310) -/

/-- The field of a control pair in SAF_PAIR_STATE: 0 PA, 1 PB, 2 SM, 3 SP. -/
def State.ctlState (s : State) (k : Nat) : Nat := s.fld Reg.safPairState (16 + 2 * k) 2

/-- SP takes the role of PA or PB (R310): domain 252 on, its memories loaded from the FIRMWARE section in force, the unfinished jobs of the pair end TILE_FAILED. -/
def State.spTakeover (s : State) (k : Nat) : State :=
  let s1 := (s.setFld Reg.safPairState (16 + 2 * k) 2 2).setFld Reg.safPairState 22 2 (1 + k)
  let s2 := ((s1.setFld Reg.safStatus 5 1 1).pdRequest 252 2).loadPair (imgFirmware s.imageInForce) 3
  let s3 := s2.failJobs (fun j => decide (j.part % 2 = k))
  (s3.safErr 3 (4 + k) 0x04 none).safRecordAll 0x63 0x04 (4 + k) 7 0

/-- The reaction to a control-pair fault: SP for PA or PB while SP is free, else the safe state. -/
def State.controlReaction (s : State) (k : Nat) : State :=
  if k < 2 && decide (s.ctlState 3 = 0) && decide (s.ctlState k = 0) then s.spTakeover k
  else (s.setFld Reg.safPairState (16 + 2 * k) 2 (if k = 3 then 3 else 1)).enterSafe

/-- CONTROL_PAIR_MISMATCH (R310). -/
def State.controlMismatch (s : State) (k : Nat) : State :=
  (s.safErr 4 (4 + k) 0x04 none).fault { cause := 0x04, subsys := controlSubsys k, unit := k }

/-- HEARTBEAT_MISSING (R310): PA, PB or SM. -/
def State.heartbeatMissing (s : State) (k : Nat) : State :=
  (s.safErr 5 (4 + k) 0x04 none).fault { cause := 0x04, subsys := controlSubsys k, unit := k }

/-! ### The reaction of Table 13.6 -/

/-- The reaction that the safety island chooses. -/
def State.react (s : State) (r : FaultReport) : State :=
  if r.cause = 0x01 ∨ r.cause = 0x02 ∨ (r.cause = 0x15 ∧ r.subsys = 6) then s.suspectReaction (r.unit % 4) r.cause r.part
  else if r.cause = 0x04 then s.controlReaction (r.unit % 4)
  else if r.cause = 0x10 ∨ r.cause = 0x11 ∨ r.cause = 0x12 then (if s.sActive then s.enterSafe else s)
  else if r.cause = 0x13 ∨ r.cause = 0x14 ∨ r.cause = 0x16 ∨ r.cause = 0x17 then s
  else s.enterSafe

/-- DETECTED_FAULT (R318): the oldest report is recorded, its release set joined, FAULT_N asserted, and the reaction taken; FAULT_N falls at its end when nothing holds it. -/
def State.detectedFault (s : State) : State :=
  match s.saf.reports with
  | [] => s
  | r :: rest =>
    let s1 := { s with saf := { s.saf with reports := rest } }
    (((s1.recordFault r).joinReleaseSet.assertFaultN).react r).settleFaultN

/-! ### The wait audit (R311) -/

/-- One core's tile in phase 2 audited: its waits met at this audit and at those of the last 200 µs. -/
def State.auditCore (s : State) (c : Nat) : State :=
  match (s.core c).prep with
  | none => s
  | some t =>
    if !(s.classS t.part) then s
    else if !(s.tileWaits t) then s.updCore c (fun q => { q with prep := some { t with audit := none } })
    else match t.audit with
      | none => s.updCore c (fun q => { q with prep := some { t with audit := some s.now } })
      | some a =>
        if s.now < a + 200000 then s
        else
          let s1 := s.updCore c (fun q => { q with prep := some { t with audit := none } })
          (s1.safErr 6 (c / 2) 0x05 (some t.part)).fault { cause := 0x05, subsys := 6, unit := c / 2, part := some t.part }

/-- WAIT_AUDIT: every core. -/
def State.waitAudit (s : State) : State := loopUp 8 (fun c x => x.auditCore c) s

/-! ### Periodic self-test (R325 to R327) -/

/-- Chunks of a pass (Table 13.9). -/
def testChunks (r : Nat) : Nat :=
  if r < 8 then 25 else if r < 20 then 64 else if r < 24 then 4 else if r < 32 then 2 else if r < 40 then 4 else 8

/-- The TB of a resource's last complete pass. -/
def State.testLast (s : State) (r : Nat) : Nat := s.rd64 (Reg.safTestLast r)

/-- The time from the present slot's end to the start of the next slot of a class S partition on a core; a slot of 50 µs that one owns gives 0 (R326). -/
def State.freeUntil (s : State) (c : Nat) : Nat :=
  let i := s.now % 1000000 / 50000
  let own := fun (k : Nat) => let o := s.slotOwner c (k % 20); o ≠ 0xFF && s.classS o
  match (List.range 20).find? (fun (k : Nat) => own (i + k)) with
  | none => 1000000
  | some k => k * 50000 - s.now % 50000

/-- May a chunk of a resource start (R326): a core chunk at a tile boundary outside class S slots, ending before the next one; another chunk when its unit holds no ready class S work? -/
def State.chunkFits (s : State) (r : Nat) : Bool :=
  if r < 8 then (s.core r).beats.isNone && decide (40000 < s.freeUntil r)
  else if 20 ≤ r ∧ r < 24 then
    s.cfg.streams.all (fun e => !(s.stClassS e.1 && decide (e.1 < 64)
      && (decide (s.stDecoder e.1 = r - 20) || (s.stDual e.1 && decide (s.stDecoder e.1 / 2 = (r - 20) / 2)))
      && ((s.decS e.1).pic.isSome || (s.decS e.1).wait.isSome || (decide (s.stSource e.1 ≠ 3) && decide (0 < s.qHeld (s.stQueue e.1)))
        || !(Tab.read (fun _ => []) s.ing.toDecoder e.1).isEmpty)))
  else if 24 ≤ r ∧ r < 28 then
    [2 * ((r - 24) / 2), 2 * ((r - 24) / 2) + 1].all (fun f =>
      match Tab.read (fun _ => (none : Option BandRun)) s.pfe.run f with | some b => !(s.stClassS b.stream) | none => true)
  else if 28 ≤ r ∧ r < 30 then s.cfg.streams.all (fun e => !(s.stClassS e.1 && (s.trkReady e.1).isSome))
  else if r = 30 then (List.range 18).all (fun p => (s.staged p).all (fun x => !x.classS))
  else if r = 39 then decide (s.pdState 252 = 2)
  else true

/-- The class S partitions that a resource serves (R327): the processing ones that use a core, front end or decoder; all of them for what serves every one. -/
def State.testServes (s : State) (r p : Nat) : Bool :=
  s.processing p && s.classS p &&
    (if r < 16 then s.holdsSlots (r % 8) p
     else if r < 20 then true
     else if r < 24 then s.cfg.streams.any (fun e => decide (s.stPart e.1 = p) && s.stDual e.1 && decide (s.stDecoder e.1 / 2 = (r - 20) / 2))
     else if r < 28 then s.cfg.streams.any (fun e => decide (s.stPart e.1 = p) && decide (s.stFrontEnd e.1 / 2 = (r - 24) / 2))
     else true)

/-- The subsystem that a self-test resource belongs to (Table 1.1). -/
def testSubsys (r : Nat) : Nat :=
  if r < 8 then 6 else if r < 20 then 7 else if r < 24 then 3 else if r < 28 then 5 else if r < 30 then 9 else if r = 30 then 10
  else if r = 31 then 12 else if r < 36 then 13 else if r < 40 then controlSubsys (r - 36) else 14

/-- A chunk that failed (R327). -/
def State.chunkFailed (s : State) (r : Nat) : State :=
  let s1 := (s.wr64 Reg.safTestFail (s.rd64 Reg.safTestFail ||| 2 ^ r)).safErr 10 r 0x15 none
  match (List.range 16).find? (s.testServes r) with
  | some p => s1.fault { cause := 0x15, subsys := testSubsys r, unit := if r < 8 then r / 2 else r, part := some p }
  | none => s1

/-- A pass complete (R325, R326): its TB; an overdue resource resumes. -/
def State.passDone (s : State) (r : Nat) : State :=
  let s1 := s.wr64 (Reg.safTestLast r) s.now
  let v := s.rd64 Reg.safTestOverdue
  if v.testBit r then (s1.wr64 Reg.safTestOverdue (v - 2 ^ r)).safRecordAll 0x61 0 r 0 0 else s1

/-- A part of a memory that chunk `n` of 64 reads, where its bank is on: the words in error are counted and reported (R278, R279, R325; log entry 104). -/
def State.testRead (s : State) (base size n : Nat) : State :=
  let a := base + size / 64 * n
  if s.bankOn a then s.noteRead 0xD0 none a (size / 64) else s

/-- The memories that a chunk of resources 8 to 19 reads: scratchpad, accumulator and weight stage of a core, or a quadrant of stream memory (Table 13.9). -/
def State.testMemory (s : State) (r n : Nat) : State :=
  if 8 ≤ r ∧ r < 16 then
    let o := 0x1000000 * (r - 8)
    ((s.testRead (0x1010000000 + o) 0x400000 n).testRead (0x1020000000 + o) 0x100000 n).testRead (0x1030000000 + o) 0x80000 n
  else if 16 ≤ r ∧ r < 20 then s.testRead (0x1000000000 + 0x400000 * (r - 16)) 0x400000 n
  else s

/-- One chunk run. -/
def State.runChunk (s : State) (r : Nat) (ok : Bool) : State :=
  let n := Tab.read (fun _ => 0) s.saf.chunks r + 1
  let full := decide (testChunks r ≤ n)
  let s := s.testMemory r (n - 1)
  let s1 := { s with saf := { s.saf with chunks := Tab.write (fun _ => 0) s.saf.chunks r (if full then 0 else n) } }
  let s2 := if ok then s1 else s1.chunkFailed r
  if full then s2.passDone r else s2

/-- SELF_TEST_CHUNK (R325, R326): a chunk that cannot start is deferred. -/
def State.selfTestChunk (s : State) (r : Nat) (ok : Bool) : State :=
  if r < 41 && s.chunkFits r then s.runChunk r ok else s

/-- TEST_OVERDUE (R326): a pass per second, overdue by more than 2 s. -/
def State.testOverdue (s : State) (r : Nat) : State :=
  let v := s.rd64 Reg.safTestOverdue
  if 41 ≤ r || v.testBit r || decide (r = 39 ∧ s.pdState 252 ≠ 2) || decide (s.now ≤ s.testLast r + 3000000000) then s
  else
    let s1 := (s.wr64 Reg.safTestOverdue (v + 2 ^ r)).safErr 11 r 0 none
    s1.safRecordAll 0x60 0 r 0 ((s.now - s.testLast r) / 1000000)

/-! ### FAULT_N test (Table 13.12) -/

/-- SAF_CTRL.fault_n_test written: accepted only while no class S partition is active. -/
def State.faultNTest (s : State) (v : Nat) : State :=
  if s.sActive then s
  else
    let on := bits v 0 1
    let s1 := (s.wr Reg.safCtrl on).setFld Reg.safStatus 7 1 on
    if on = 1 then s1.assertFaultN else s1.settleFaultN

/-! ### Processing (R332, R301) -/

/-- Has host software loaded and bound the models that a class S partition lost in a restart (R391): it has a sequence, and each is ready? -/
def State.modelsBack (s : State) (p : Nat) : Bool :=
  !(s.saf.lostModels.getLsbD p) || (!(s.partSeqs p).isEmpty && (s.partSeqs p).all (fun i => s.seqReady (s.seq i)))

/-- Do R332's conditions hold for a partition; a class S one does not start in safe hold, after a failed injection, while the safe state is pending or without the models that it lost (R319, R321, R323, R391)? -/
def State.mayProcess (s : State) (p : Nat) : Bool :=
  decide (s.devState = 5) && s.canIssue p && (Tab.find s.cfg.parts p).isSome && s.qEnabled (s.noticeRing p)
    && !(s.classS p && (s.bitAt Reg.safStatus 4 || decide (s.rd Reg.safInjFail ≠ 0) || s.bitAt Reg.safStatus 2 || !(s.modelsBack p)))

/-- The COVERAGE records of a class S partition's streams (R301). -/
def State.coverage (s : State) (p : Nat) : State :=
  s.cfg.streams.foldl (fun x e =>
    if x.stPart e.1 = p then
      let y := x.safRecord p 0x65 0 0 1 0 0 (some e.1)
      if e.1 < 64 && !(x.stDual e.1) then y.safRecord p 0x65 0 0 2 0 0 (some e.1) else y
    else x) s

/-- SAF_STATUS follows the class S partitions that process. -/
def State.showRunning (s : State) : State :=
  let m := loopUp 16 (fun p n => if s.processing p && s.classS p then n + 2 ^ p else n) 0
  (s.setFld Reg.safStatus 16 16 m).setFld Reg.safStatus 0 1 (b2n (decide (m ≠ 0)))

/-- A partition starts to process: shown, vector 0; class S raises the rails' floor and reports its coverage. -/
def State.startPart (s : State) (p : Nat) : State :=
  let s1 := ((s.setFld Reg.mgmtFuncState (16 + p) 1 1).setFld (Reg.safPart p) 1 1 1).showRunning.msix p 0
  let s2 := { s1 with saf := { s1.saf with lostModels := BitVec.ofNat 16 (putBits s1.saf.lostModels.toNat p 1 0) } }
  if s.classS p then (s2.raiseFloor).coverage p else s2

/-- A partition stops processing: shown, vector 0; with the last class S partition the rails' floor is lifted. -/
def State.stopPart (s : State) (p : Nat) : State :=
  let s1 := ((s.setFld Reg.mgmtFuncState (16 + p) 1 0).setFld (Reg.safPart p) 1 1 0).showRunning.msix p 0
  if s1.sActive then s1 else s1.setFld Reg.pwtStatus 5 1 0

/-- A write to configuration space of a function (R331, R332, R341): VF Enable with NumVFs, Bus Master Enable, the power state, Enable Relaxed Ordering. -/
def State.configWrite (s : State) (f : Nat) (vfs : Option Nat) (bme d3 ro : Option Bool) : State :=
  let h := s.hep
  let setB := fun (v : BitVec 16) (o : Option Bool) => match o with
    | some b => BitVec.ofNat 16 (putBits v.toNat f 1 (b2n b))
    | none => v
  let h1 := { h with bme := setB h.bme bme, d3hot := setB h.d3hot d3, relaxed := setB h.relaxed ro }
  let s1 := match vfs with
    | some n =>
      let k := min n 15
      ({ s with hep := { h1 with vfEnable := decide (0 < n), numVfs := k } }).setFld Reg.mgmtFuncState 0 16 (2 ^ (k + 1) - 1)
    | none => { s with hep := h1 }
  s1

/-- PARTITION_PROCESSING_START (R332): a configuration write that lets a partition process; it starts once every condition holds. -/
def State.processingStart (s : State) (p : Nat) (vfs : Option Nat) (ctl : Option FnControl) : State :=
  let s1 := s.configWrite p vfs (ctl.map (fun c => c.bme)) (ctl.map (fun _ => false)) (ctl.map (fun c => c.relaxed))
  if !(s1.processing p) && s1.mayProcess p then s1.startPart p else s1

/-- A partition that may no longer process stops. -/
def State.stopIfBroken (s : State) (p : Nat) : State :=
  if s.processing p && !(s.mayProcess p) then s.stopPart p else s

/-- PARTITION_PROCESSING_STOP (R332): a partition whose conditions no longer hold stops, and its DMA with it where its function may issue none. -/
def State.processingStop (s : State) (p : Nat) (vfs : Option Nat) : State :=
  (s.configWrite p vfs none none none).stopIfBroken p

/-- BUS_MASTER_ENABLE_CLEAR (R331, R332): Bus Master Enable falls, or the function enters D3hot; its DMA and messages stop, and its partition stops. -/
def State.bmeClear (s : State) (f : Nat) (d3 : Bool) : State :=
  (if d3 then s.configWrite f none none (some true) none else s.configWrite f none (some false) none none).stopIfBroken f

end Sys2Proof.Machine
end

