-- ==== Sys2Proof/Machine/Resets.lean ====
section
/-!
DEFINITION. What resets keep, what a restart loses and aligns, and the end of a partition (R342 to R344, R387 to R389, R392, Tables 14.7, 16.5).
-/
namespace Sys2Proof.Machine

/-! ### Registers that resets keep -/

/-- Is `a` in a window repeated `n` times with a stride, at offsets `[lo, hi)` of it? -/
def inCopies (a base stride n lo hi : Nat) : Bool :=
  decide (base ≤ a) && decide (a < base + stride * n) && decide (lo ≤ (a - base) % stride) && decide ((a - base) % stride < hi)

/-- Counters that only power-on resets, and the captures that stand beside sticky bits (the Registers sections of 03 to 14; the chapters that say so of their counters are followed for all). -/
def isCounter (a : Nat) : Bool :=
  if a < 0x500000 then
    decide (a = 0x24) || (decide (0x28 ≤ a) && decide (a < 0x38)) || decide (a = Reg.pwtPdWakeCnt)
      || (decide (0x300020 ≤ a) && decide (a < 0x300030)) || (decide (0x300048 ≤ a) && decide (a < 0x300058)) || inCopies a 0x300300 16 16 4 8
  else if a < 0x700000 then
    inCopies a 0x500000 0x1000 8 0x10 0x1C || inCopies a 0x508000 0x40 32 0 0x1C || inCopies a 0x508000 0x40 32 0x28 0x2C
      || inCopies a 0x600000 0x1000 2 0x14 0x38 || inCopies a 0x608000 0x40 64 0 0x1C || inCopies a 0x608000 0x40 64 0x28 0x2C
  else if a < 0x900000 then
    decide (a = Reg.decDualMismatchCnt) || inCopies a 0x701000 0x1000 4 8 0x1C || inCopies a 0x708000 0x40 64 0xC 0x20
      || (decide (0x800010 ≤ a) && decide (a < 0x800018)) || inCopies a 0x801000 0x80 16 0x48 0x54
  else if a < 0xB00000 then
    decide (a = Reg.pfeDualMismatchCnt) || inCopies a 0x901000 0x1000 4 0x10 0x18 || inCopies a 0x910000 0x200 96 0x108 0x128
      || inCopies a 0xA00000 0x10000 8 0x18 0x50
  else if a < 0xE00000 then
    inCopies a 0xB01000 0x1000 2 8 0x18 || inCopies a 0xB08000 0x80 96 0x40 0x44 || inCopies a 0xB08000 0x80 96 0x48 0x50
      || (decide (0xC00008 ≤ a) && decide (a < 0xC00010)) || inCopies a 0xC04000 0x40 16 0 0x10 || inCopies a 0xC08000 0x40 96 0x10 0x18
  else if a < 0x1000000 then
    decide (a = Reg.poolErrLoc) || (decide (0xE00030 ≤ a) && decide (a < 0xE00038)) || inCopies a 0xE20000 0x20 256 0x10 0x18
      || inCopies a 0xF10000 0x10000 4 8 0x20 || inCopies a 0xF10000 0x10000 4 0x100 0x300
      || (decide (0xF8000C ≤ a) && decide (a < 0xF80018)) || (decide (0xF80020 ≤ a) && decide (a < 0xF80300))
  else
    inCopies a 0x1100000 0x40 16384 40 48 || (decide (0x1300008 ≤ a) && decide (a < 0x1300020))
      || decide ((a - 0x100000000) % 0x100000 = 0x108 ∧ 0x100000000 ≤ a)

/-- What every reset but power-on keeps: RWS rows (R9, R342), the TB, ERR and SEC blocks (R342, R441, chapters 16 and 17), identification, MGMT_I2C_CTRL, MGMT_MBX_IGNORED, and the counters. -/
def keptReg (a : Nat) : Bool :=
  (decide (0x100000 ≤ a) && decide (a < 0x200000)) || (decide (0x400000 ≤ a) && decide (a < 0x500000))
    || (decide (0x2000000 ≤ a) && decide (a < 0x2100000)) || decide (a < 0xC) || decide (a = 0x38) || decide (a = mbxBase 0 + 8)
    || isCounter a || (match regRow a with | some r => r.acc == .rws | none => false)

/-- What a hot reset or a PF function-level reset keeps beside that: fault record, pair states and self-test record (Table 13.12), what PWT and the DRAM controller show, the link, the state. -/
def keptWarm (a : Nat) : Bool :=
  keptReg a || decide (a = Reg.mgmtStatus) || decide (a = Reg.mgmtLink) || decide (a = Reg.safStatus)
    || (decide (0x30000C ≤ a) && decide (a < 0x300034)) || (decide (0x300058 ≤ a) && decide (a < 0x30006C)) || (decide (0x300100 ≤ a) && decide (a < 0x300248))
    || (decide (0x200000 ≤ a) && decide (a < 0x300000) && (match regRow a with | some r => r.acc == .ro | none => false))
    || (decide (0xF00018 ≤ a) && decide (a < 0xF00060)) || (decide (0xF10000 ≤ a) && decide (a < 0xF80000))

/-! ### Counts kept aligned (R389) -/

/-- What an open CSI-2 frame still lacks of its increments under R54. -/
def State.alignCsi (s : State) (st : Nat) : State :=
  match (s.inS st).csi with
  | some f => if f.admitted then s.signal (s.stStored st) (s.stHeight st - f.stored) else s
  | none => s

/-- Every band of a stream's views that a frame without any band yet lacks (R117). -/
def State.alignViews (s : State) (st : Nat) : State :=
  (List.range 4).foldl (fun (x : State) v => x.signal (x.vw st v 24 0 16) (s.viewBands st v false true []).length) s

/-- What a latched frame lacks: its remaining bands, and the lines of the ring not yet released. -/
def State.alignFrame (s : State) (st : Nat) (f : FeFrame) : State :=
  let s1 := f.bands.foldl (fun (x : State) b => x.signal (x.vw st b.view 24 0 16) 1) s
  if f.info.isSome then s1 else s1.signal (s.stReleased st) (s.srcH st - f.released)

/-- What a frame lacks whose notice no front end has taken. -/
def State.alignNotice (s : State) (n : FeNotice) : State :=
  let s1 := s.alignViews n.stream
  if n.stream < 64 then s1 else s1.signal (s.stReleased n.stream) (s.srcH n.stream)

/-- Units that ingress has admitted and no decoder has begun: in the queue, pushed and read, being read. -/
def State.unbegun (s : State) (st : Nat) : Nat :=
  let some2 := fun (e : Desc64) => !(decide (auFld e 4 0 32 = 0))
  (if s.stSource st = 3 then 0 else s.qHeld (s.stQueue st)) + ((Tab.read (fun _ => []) s.ing.toDecoder st).filter some2).length
    + (((s.inS st).reads ++ (s.inS st).pushWait.toList).filter (fun r => some2 r.entry)).length + b2n (s.decS st).wait.isSome

/-- What a stream's pictures and units on the way lack (R85, R117), and pushed entries not admitted signal their done_sync. -/
def State.alignDecoder (s : State) (st : Nat) : State :=
  let s1 := match (s.decS st).pic with | some p => s.signal (s.rowSync st) (p.rows - p.signalled) | none => s
  let s2 := loopUp (s.unbegun st) (fun _ (x : State) => x.alignViews st) s1
  let s3 := (s.inS st).reads.foldl (fun (x : State) r => x.pushSync st r.entry) s2
  let s4 := match (s.inS st).pushHeld with | some r => s3.pushSync st r.entry | none => s3
  match (s.inS st).pushWait with | some r => s4.pushSync st r.entry | none => s4

/-- The tracker's waits raised to a whole increment (inc_a, inc_b). -/
def State.alignTracker (s : State) (st : Nat) : State :=
  if !(s.trkOn st) then s
  else
    let t := s.trkS st
    let up := fun (x : State) (n base inc : Nat) => if inc = 0 then x else x.signal n ((inc - (x.syncVal n - base) % inc) % inc)
    let s1 := up (up s (s.td st 34 0 16) t.baseA (s.td st 38 0 8)) (s.td st 36 0 16) t.baseB (s.td st 39 0 8)
    s1.updTrk st (fun x => { x with baseA := s1.syncVal (s.td st 34 0 16), baseB := s1.syncVal (s.td st 36 0 16) })

/-- Every stream aligned. -/
def State.alignAll (s : State) : State :=
  let s1 := s.dec.notices.foldl (fun (x : State) n => x.alignNotice n) s
  s.cfg.streams.foldl (fun (x : State) e =>
    let y := (s.feS e.1).frames.foldl (fun (z : State) f => z.alignFrame e.1 f) (x.alignCsi e.1)
    (if e.1 < 64 then y.alignDecoder e.1 else y).alignTracker e.1) s1

/-! ### Device holds, mailboxes, sessions -/

/-- The pool in which a buffer descriptor lies. -/
def State.poolOf (s : State) (i : Nat) : Option Nat :=
  (List.range 256).find? (fun k => s.pValid k && decide (s.pFirst k ≤ i) && decide (i < s.pFirst k + s.pCount k))

/-- Device units lose their holds: a buffer that no host software holds returns; another keeps host software of its partition as last owner (Table 16.5). -/
def State.loseHold (s : State) (e : Nat × Buf) : State :=
  let hs := e.2.holders.filter isHost
  if !e.2.allocated then s
  else if hs.isEmpty then (match s.poolOf e.1 with | some k => s.returnBuf (mkHandle k e.1) | none => s.setBuf e.1 {})
  else s.setBuf e.1 { e.2 with holders := hs, lastOwner := if isHost e.2.lastOwner then e.2.lastOwner else hostHolder e.2.part }

/-- Every device hold lost, every waiting reservation withdrawn. -/
def State.loseHolds (s : State) : State :=
  let ks := s.pool.waiting.flatMap (fun w => w.pairs.map (fun p => p.1))
  let s1 := { s with pool := { s.pool with waiting := [] } }
  s.pool.bufs.foldl (fun (x : State) e => x.loseHold e) (s1.showWaiting ks)

/-- Mailbox commands in flight end ABORTED, but for a fuse burn under R386. -/
def State.abortMailboxes (s : State) : State :=
  loopUp 16 (fun f (x : State) => match x.mbxRun f with
    | some m => if m.opcode = 0x31 then x else x.mbxAbort f
    | none => x) s

/-- A session that was armed or delivering is armed again, its pre-roll lost. -/
def State.rearm (s : State) (n : Nat) : State :=
  let st := s.sessState n
  if st = 0 then s
  else
    let s1 := (s.updSess n (fun x => { snippet := x.snippet, bytes := x.bytes })).setSess n 0
    if st = 3 then s1 else s1.encStart n

/-! ### Work lost in a restart (Table 16.5) -/

/-- Decoders, front ends, trackers, cores and planner lose their work in flight; streams that decoded enter RESYNC, tracks go. -/
def State.dropUnits (s : State) : State :=
  let s1 := loopUp 64 (fun st (x : State) => if x.decState st = 0 then x else (x.setDecState st 2).setFld (Reg.decStrmState st) 4 5 0) s
  let s2 := { s1 with
    dec := {}, pfe := {}, dram := { s1.dram with scrubAt := none, waiting := [] }, hal := { s1.hal with copies := [] },
    trk := { s1.trk with strm := s1.trk.strm.map (fun (e : Nat × TrkStream) => (e.1, ({ baseA := e.2.baseA, baseB := e.2.baseB } : TrkStream))), pairWin := none },
    pln := { s1.pln with units := [], jobs := [], frames := [], rejects := [], returned := [], spec := [] },
    saf := { s1.saf with chunks := [], win := [] },
    pwt := { s1.pwt with heldDma := [], gatePend := [], pdWait := [], pdTarget := [] },
    cores := [] }
  let s3 := loopUp 8 (fun c (x : State) => x.showCore c) s2
  let s4 := loopUp 4 (fun d (x : State) => ((x.wr64 (Reg.decStatus d) 0).wr64 (Reg.pfeStatus d) 0)) s3
  let s5 := loopUp 2 (fun t (x : State) => x.wr64 (Reg.trkStatus t) 0) s4
  loopUp 96 (fun st (x : State) => x.showTracks st) s5

/-- What counting needs of a stream: its first frame taken, the references of the next counter, the last push (R51). -/
def InStream.counting (x : InStream) : InStream :=
  { seen := x.seen, resume := x.seen, prevFn := x.prevFn, prevStamp := x.prevStamp, lastClosed := x.lastClosed,
    dropsSince := x.dropsSince, pushed := x.pushed, lastPush := x.lastPush }

/-- Ingress loses frames, units and rings; counting goes on (R51). A running CSI-2 stream has its line ring again. -/
def State.dropIngress (s : State) : State :=
  let s1 := { s with ing := { s.ing with toDecoder := [], strm := s.ing.strm.map (fun (e : Nat × InStream) => (e.1, e.2.counting)) } }
  s1.storeLevels.cfg.streams.foldl (fun (x : State) e =>
    if x.stSource e.1 = 0 ∧ x.stRun e.1 ≠ 0 then
      match x.tryReserve (x.stPart e.1) (x.ingHolder e.1) [(x.stPool e.1, 1)] with
      | some (y, h :: _) => y.updIn e.1 (fun z => { z with ring := some h, relBase := y.syncVal (y.stReleased e.1) })
      | _ => x
    else x) s1.storeLevels

/-- The queues of the network that a kind selects, by their listed descriptors. -/
def State.queuesOf (s : State) (sel : Nat → Bool) : List Nat :=
  ((s.regs.filter (fun e => decide (Reg.halQueueDesc 0 ≤ e.1) && decide (e.1 < Reg.halQueueDesc 16384) && decide (e.1 % 64 = 0))).map
    (fun e => (e.1 - Reg.halQueueDesc 0) / 64)).filter sel

/-- Internal queues: the consumer index set to the producer index, and the queue enabled. -/
def State.emptyInternal (s : State) : State :=
  (s.queuesOf (fun q => decide (s.qType q = 2))).foldl (fun (x : State) q => (x.wr (Reg.halQueueDesc q + 36) (x.qP q)).setFld (Reg.halQueueDesc q) 2 1 1) s

/-- The collector loses what is staged; rings keep their sequence numbers. -/
def State.dropCollector (s : State) : State :=
  let rings := s.col.rings.map (fun (e : Nat × RingState) => (e.1, ({ e.2 with stall := none, dropping := false } : RingState)))
  { s with col := { closed := s.col.closed, rings := rings } }

/-- Everything that a safe-state restart loses (Table 16.5, R389). -/
def State.loseWork (s : State) : State :=
  let s1 := (s.failJobs (fun j => j.entry.isSome)).alignAll
  let s2 := ((s1.abortMailboxes).dropUnits).loseHolds
  let s3 := ((s2.dropIngress).emptyInternal).dropCollector
  loopUp 16 (fun n (x : State) => x.rearm n) s3

/-! ### The end of a partition (R343) -/

/-- A FRAME_WITHDRAWN written at once where its ring takes it. -/
def State.withdrawNow (s : State) (st : Nat) (f : OpenFrame) : State :=
  let body : Blob := { len := 8, val := 7 + 14 <<< 8 }
  let r := { s.blankRec st with typ := 0x0B, counter := f.counter, ts := f.ts, body := body }
  let q := s.recRing r
  let s1 := if f.withdrawn then s else s.bump Reg.safWithdrawnCnt 1
  if q ≠ noQueue && s.qEnabled q && s.ringRoom q r.units 0x0B then s1.deliverWithdrawn st q r
  else (s1.setFrames st ((s1.frames st).filter (fun x => decide (x.counter ≠ f.counter)))).noteClose st { counter := f.counter, cause := 0, withdrawn := true }

/-- Step 3: the open frames of a stream end. -/
def State.endFrames (s : State) (st : Nat) : State :=
  (s.frames st).foldl (fun (x : State) f => if s.stClassS st then x.withdrawNow st f else x.closeFrame st (ingPort st) 3) s

/-- Step 2 on one core: descriptors of the partition that have not reached phase 3 go, with their claims and weights. -/
def State.endTiles (s : State) (c p : Nat) : State :=
  (s.updCore c (fun k =>
    let mine := fun (o : Option Tile) => o.any (fun t => decide (t.part = p))
    let freed := match k.prep with
      | some t => if t.part = p then k.discard t else k
      | none => k
    let open_ := mine k.prep || mine k.wait1 || decide (k.chainOpen = some p)
    { freed with
      prep := if mine k.prep then none else k.prep, wait1 := if mine k.wait1 then none else k.wait1,
      fifo := k.fifo.filter (fun t => decide (t.part ≠ p)), ready := k.ready &&& (65535 - 2 ^ p),
      chainOpen := if open_ then none else k.chainOpen, chainEst := if open_ then 0 else k.chainEst })).enterPhase2 c

/-- Step 2 in the planner and the pools: units, jobs and waiting reservations of the partition go. -/
def State.endJobs (s : State) (p : Nat) : State :=
  let gone := s.pool.waiting.filter (fun w => decide (w.tag = p))
  let s1 := (s.pln.jobs.filter (fun j => decide (j.part = p))).foldl (fun (x : State) j => match j.entry with | some e => x.dropJob p e | none => x) s
  let s2 := { s1 with
    pool := { s1.pool with waiting := s1.pool.waiting.filter (fun w => decide (w.tag ≠ p)) },
    dram := { s1.dram with waiting := s1.dram.waiting.filter (fun q => decide (q.part.toNat ≠ p)) },
    pwt := { s1.pwt with heldDma := s1.pwt.heldDma.filter (fun q => decide (q.part.toNat ≠ p)) },
    pln := { s1.pln with
      units := s1.pln.units.filter (fun u => decide (u.part ≠ p)), jobs := s1.pln.jobs.filter (fun j => decide (j.part ≠ p)),
      frames := s1.pln.frames.filter (fun f => decide (seqPart (s1.seq f.seq) ≠ p)),
      rejects := s1.pln.rejects.filter (fun r => decide (r.tile.part ≠ p)), returned := s1.pln.returned.filter (fun t => decide (t.part ≠ p)) },
    ing := { s1.ing with strm := s1.ing.strm.map (fun (e : Nat × InStream) => if s.stPart e.1 = p then (e.1, ({ e.2 with pushWait := none } : InStream)) else e) },
    dec := { s1.dec with strm := s1.dec.strm.map (fun (e : Nat × DecStream) => if s.stPart e.1 = p then (e.1, ({ e.2 with wait := none } : DecStream)) else e) } }
  s2.showWaiting (gone.flatMap (fun w => w.pairs.map (fun x => x.1)))

/-- Step 4: queues disabled, watches disarmed, internal queues enabled and empty. -/
def State.endQueues (s : State) (p : Nat) : State :=
  let s1 := (s.queuesOf (fun q => decide (s.qOwner q = p) && decide (s.qType q ≠ 2))).foldl (fun (x : State) q => x.qDisable q) s
  let s2 := (s.queuesOf (fun q => decide (s.qOwner q = p) && decide (s.qType q = 2))).foldl (fun (x : State) q => x.qEmpty q) s1
  let ws := (s.regs.filter (fun e => decide (Reg.halWatch 0 ≤ e.1) && decide (e.1 < Reg.halWatch 4096) && decide (e.1 % 64 = 0))).map (fun e => (e.1 - Reg.halWatch 0) / 64)
  (ws.filter (fun w => s.inWatchRange p w)).foldl (fun (x : State) w => x.setFld (Reg.halWatch w) 18 1 0) s2

/-- Step 5: every hold of host software of the partition ends. -/
def State.endHolds (s : State) (p : Nat) : State :=
  (s.pool.bufs.filter (fun e => e.2.holders.contains (hostHolder p))).foldl (fun (x : State) e =>
    match x.poolOf e.1 with | some k => x.giveUp p (hostHolder p) (mkHandle k e.1) | none => x) s

/-- Sync objects that wait for their reset are reset once no wait names them (R343 step 6, R250). -/
def State.settleResets (s : State) : State :=
  s.hal.lateReset.foldl (fun (x : State) n =>
    if x.waitNames n then x
    else { x.wr64 (Reg.halSyncValue (n % 65536)) 0 with hal := { x.hal with lateReset := x.hal.lateReset.filter (fun m => decide (m ≠ n)) } }) s

/-- Step 6: the partition's sync objects reset once no wait names them, its models unloaded, its sequences invalid: their entries are no longer in use (log entry 31). -/
def State.endObjects (s : State) (p : Nat) : State :=
  let ns := ((s.regs.filter (fun e => decide (Reg.halSyncValue 0 ≤ e.1) && decide (e.1 < Reg.halSyncValue 65536))).map
    (fun e => (e.1 - Reg.halSyncValue 0) / 16)).eraseDups.filter (fun n => s.inSyncRange p n)
  let s1 := { s with
    hal := { s.hal with lateReset := (s.hal.lateReset ++ ns).eraseDups },
    pln := { s.pln with models := s.pln.models.filter (fun m => decide (m.part ≠ p)), unbind := s.pln.unbind.filter (fun i => decide (seqPart (s.seq i) ≠ p)) } }
  let s2 := { s1 with saf := { s1.saf with lostModels := BitVec.ofNat 16 (putBits s1.saf.lostModels.toNat p 1 0) } }
  (s.pln.seqs.filter (fun e => decide (seqPart e.2.toNat = p))).foldl (fun (x : State) e => x.setSeq e.1 0) s2.settleResets

/-- The streams of a partition that run are stopping (R51). -/
def State.endStreams (s : State) (p : Nat) : State :=
  s.cfg.streams.foldl (fun (x : State) e => if x.stPart e.1 = p ∧ x.stRun e.1 = 1 then x.setFld (Reg.ingStrmState e.1) 0 2 2 else x) s

/-- Steps 1 to 7 of R343 on a partition, beside the mailbox. -/
def State.endPartition (s : State) (p : Nat) : State :=
  let s1 := loopUp 8 (fun c (x : State) => x.endTiles c p) (s.endStreams p)
  let s2 := s.cfg.streams.foldl (fun (x : State) e => if s.stPart e.1 = p then x.endFrames e.1 else x) (s1.endJobs p)
  let s2 := s.cfg.streams.foldl (fun (x : State) e => if s.stPart e.1 = p then x.updTrk e.1 (fun t => { t with held := [] }) else x) s2
  let s3 := (((s2.endQueues p).endHolds p).endObjects p).setFld Reg.memDmaHalt p 1 0
  if s3.processing p then s3.stopPart p else s3

/-! ### Functions -/

/-- Configuration space of a function at reset values: Bus Master Enable, Enable Relaxed Ordering, power state, AER status, and the MSI-X table and pending bits (Table 14.7). -/
def State.resetFn (s : State) (f : Nat) : State :=
  let off := fun (v : BitVec 16) => BitVec.ofNat 16 (putBits v.toNat f 1 0)
  let s1 := { s with hep := { s.hep with bme := off s.hep.bme, d3hot := off s.hep.d3hot, aerUr := off s.hep.aerUr, aerEcrc := off s.hep.aerEcrc, relaxed := BitVec.ofNat 16 (putBits s.hep.relaxed.toNat f 1 1) } }
  if f = 0 then s1.clearRegs 0x10000 0x18100 else s1.clearRegs (vfBase f + 0xC000) (vfBase f + 0xD010)

/-- A mailbox at reset values: its command ends ABORTED, and the registers but MGMT_MBX_IGNORED are cleared. -/
def State.resetMbx (s : State) (f : Nat) : State :=
  let s1 := s.mbxAbort f
  (s1.clearRegs (mbxBase f) (mbxBase f + 8)).clearRegs (mbxBase f + 0xC) (mbxBase f + 0xC0)

/-- The steps of a VF function-level reset that a device-wide command delays (R343, R346). -/
def State.flrSteps (s : State) (f : Nat) : State := (s.resetMbx f).endPartition f

/-- VF_FLR (R343, R344). -/
def State.vfFlr (s : State) (f : Nat) : State :=
  if f = 0 ∨ 15 < f ∨ s.fnExists f = false then s
  else
    if s.bitAt Reg.mgmtStatus 4 then
      let s1 := s.resetFn f
      { s1 with hep := { s1.hep with lateFlr := s1.hep.lateFlr.filter (fun g => decide (g ≠ f)) ++ [f] } }
    else ((s.resetMbx f).resetFn f).endPartition f

/-- Every function's configuration space, MSI-X and mailbox at reset values, the VFs gone. -/
def State.resetFns (s : State) : State :=
  let s1 := loopUp 16 (fun f (x : State) => (x.resetFn f).clearRegs (mbxBase f) (mbxBase f + 8) |>.clearRegs (mbxBase f + 0xC) (mbxBase f + 0xC0)) s
  { s1 with hep := {} }

end Sys2Proof.Machine
end

