-- ==== Sys2Proof/Machine/Start.lean ====
section
/-!
DEFINITION. Cold start, image supply, resets of the whole device, restart, power (R322, R323, R342, R371 to R383, R387 to R393, Tables 14.7, 16.3, 16.6).
-/
namespace Sys2Proof.Machine

/-! ### Status and causes -/

/-- An event of SEC_BOOT_ERR, with the fail_cause of Table 16.9 that it brings. -/
def State.bootErr (s : State) (b cause : Nat) : State := s.raise { idx := 18, unit := 0, bit := b, detail := cause }

/-- A phase of Table 16.3 begins. -/
def State.phase (s : State) (p st : Nat) : State := (s.setDevState st).setFld Reg.secBootStatus 4 4 p

/-- A phase ends: its TB. -/
def State.phaseEnd (s : State) (p : Nat) : State := s.wr64 (Reg.secBootTb p) s.now

/-- The start ends in FAILED with a cause (R381). -/
def State.startFail (s : State) (cause : Nat) : State := (s.setDevState 7).setFld Reg.secBootStatus 16 8 cause

/-! ### Fuses (R373, R383, R395, R404) -/

/-- SEC_STATUS shows slots, revocations and the rollback count. -/
def State.showFuses (s : State) : State :=
  ((s.setFld Reg.secStatus 4 4 Config.programmed.toNat).setFld Reg.secStatus 8 4 s.sec.revoked.toNat).setFld Reg.secStatus 16 7 s.sec.burnt

/-- Key digests, serial number and certificate shown. -/
def State.showIdentity (s : State) : State :=
  let s1 := loopUp 4 (fun k (x : State) => x.wrWords (Reg.secKeyHash k) 8 (if Config.programmed.getLsbD k then (Config.keyHash k).toNat else 0)) s
  ((s1.wr64 Reg.secDevSerial Config.serial.toNat).wr Reg.secIdCertLen (min 2048 Config.certLen.toNat)).wrWords Reg.secIdCert 512 Config.cert.toNat

/-- MEM_REPAIR of every memory shows its fused repair: spare columns in use, the latch stage of a repaired bank, spare columns provided (R276, Table 12.14). -/
def State.showRepair (s : State) : State :=
  loopUp 224 (fun i (x : State) =>
    let spare := bits (regReset (Reg.memRepair i)).toNat 4 3
    let used := min spare (Config.repairUsed i).toNat
    x.wr (Reg.memRepair i) (used + (b2n (decide (0 < used))) <<< 3 + spare <<< 4)) s

/-- Calibration sources that are valid, newest first: 2 row 1, 1 row 0, 0 factory (R383). -/
def State.calSources (s : State) : List Nat :=
  (if s.sec.row1.valid then [2] else []) ++ (if s.sec.row0.valid then [1] else []) ++ (if s.sec.factoryGone then [] else [0])

/-- The word that a source holds for an index, within its format. -/
def State.calWord (s : State) (src i : Nat) : Nat :=
  (if src = 0 then (Config.calFactory i).toNat
    else (Tab.read (fun _ => (0 : Word)) (if src = 2 then s.sec.row1.words else s.sec.row0.words) i).toNat) &&& calMask i

/-- The shadows and SEC_CAL_FUSE filled from the newest readable source; none is left without one. -/
def State.fillShadows (s : State) (ue : Nat) : Option State :=
  let all := s.calSources
  let s1 := if (all.takeWhile (fun k => ue.testBit k)).isEmpty then s else s.bootErr 2 (if all.all (fun k => ue.testBit k) then 2 else 0)
  match all.find? (fun k => !(ue.testBit k)) with
  | none => none
  | some k =>
    let s2 := loopUp 512 (fun i (x : State) => (x.wr (Reg.secCalShadow i) (s.calWord k i)).wr (Reg.secCalFuse i) (s.calWord k i)) s1
    some ({ s2.setFld Reg.secBootStatus 12 2 k with sec := { s2.sec with calDue := false } })

/-- Phase 1: fuse load. The second part says whether the start goes on. -/
def State.phase1 (s : State) (t : StartFacts) : State × Bool :=
  let s1 := (((s.phase 1 0).setFld Reg.secBootStatus 2 2 0).setFld Reg.secBootStatus 16 9 0).setFld Reg.secBootStatus 8 4 0
  let s2 := if t.fuseCe then s1.bootErr 0 0 else s1
  if t.fuseUe then ((s2.bootErr 1 1).startFail 1, false)
  else
    let s3 := (s2.showFuses.showRepair.showIdentity.showCalRows).setFld Reg.secStatus 2 2 0
    let s4 := if s3.fld Reg.secStatus 0 2 = 2 then s3 else s3.setFld Reg.secStatus 0 2 0
    if s4.sec.calDue then
      match s4.fillShadows t.calUe.toNat with
      | some s5 => (s5.phaseEnd 1, true)
      | none => ((s4.bootErr 2 2).startFail 2, false)
    else (s4.phaseEnd 1, true)

/-! ### Identity (R403) -/

/-- The bytes "ZJ-ID" followed by one byte. -/
def idLabel (n : Nat) : Blob := { len := 6, val := 0x44492D4A5A + n <<< 40 }

/-- The identity key d. -/
def identityKey : Nat :=
  let k : Blob := { len := 32, val := Config.secret.toNat }
  beInt (Blob.append (hmac256 k (idLabel 0)) (hmac256 k (idLabel 1))) % (p256N - 1) + 1

/-- The identity public key's 64 bytes (R395's layout). -/
def identityPub : Blob := match ecMul 256 identityKey p256G with | some (x, y) => keyBytes x y | none => keyBytes 0 0

/-- Phase 2: the link trains, the identity key is derived. -/
def State.phase2 (s : State) (t : StartFacts) : State :=
  let s1 := (s.phase 2 0).wr Reg.mgmtLink (t.linkRate.toNat + t.linkWidth.toNat <<< 4 + 1 <<< 10)
  ((s1.wrWords Reg.secIdPub 16 identityPub.val).setFld Reg.secStatus 2 1 1).phaseEnd 2

/-! ### Images (R364, R374 to R380) -/

/-- How the taking of an image ends. -/
inductive Taken where
  | applied
  | refused (r : Rej)
  | failed
  deriving DecidableEq, Repr

/-- A refusal: the reject record, SEC_VERIFY, and SEC_ERR.verify_fail for the codes 0x05 and 0x06 of a signature or a rollback (R364, R396, R398, Table 17.6). -/
def State.noteReject (s : State) (r : Rej) (v : Nat) (verify : Bool) : State :=
  let s1 := (s.wrWords Reg.secReject 4 r.image).wr Reg.secVerify v
  if verify && (r.code == 0x05 || r.code == 0x06) then s1.raise { idx := 17, unit := 0, bit := 0, detail := bits v 0 3 } else s1

/-- Channel `x` trained or failed (R288). -/
def State.trainChannel (s : State) (t : StartFacts) (x : Nat) : State :=
  let s1 := loopUp 9 (fun l (y : State) => (y.wr (Reg.ddrTrainLane x l) ((t.lanes[9 * x + l]?).getD 0)).wr (Reg.ddrTrainVref x l) (((t.vref[9 * x + l]?).getD 0) &&& 0x7F7F)) s
  if t.trained.getLsbD x then s1.setFld (Reg.ddrChStatus x) 0 2 2
  else (s1.setFld (Reg.ddrChStatus x) 0 2 3).raise { idx := 13, unit := x, bit := 4 }

/-- Phase 4: DRAM training with an image's DRAM body; left out where it has already been trained on (R379). -/
def State.phase4 (s : State) (t : StartFacts) (b : Blob) : State × Bool :=
  if s.sec.trained = some (dramBody b) then (s.phaseEnd 4, true)
  else
    let again := s.sec.trained.isSome
    let s1 := (s.phase 4 3).applyDram b (sectOff b 14)
    let s2 := (List.range 4).foldl (fun (x : State) c => if s1.bitAt Reg.ddrPop c then x.trainChannel t c else x) (if again then s1.setFld Reg.secBootStatus 24 1 1 else s1)
    if (List.range 4).any (fun c => s1.bitAt Reg.ddrPop c && !(t.trained.getLsbD c)) then (s2.startFail 5, false)
    else ({ s2 with sec := { s2.sec with trained := some (dramBody b) } }.phaseEnd 4, true)

/-- An accepted image kept in a half of the image region, with its digests and what SEC_STATUS says of it (R379, R388, R405). -/
def State.keepImage (s : State) (b : Blob) (half : Nat) : State :=
  let region := b.le (sectOff b 1 + 8) 8
  let s1 := s.wrMem (region + 0x2000000 * half) b.len b.val
  { s1.setFld Reg.secStatus 12 2 (imgSlot b) with sec := { s1.sec with
      region := region, half := half, imgLen := b.len, halfDigest := (sha256 b).val,
      imgDigest := (sha256 (b.slice 0 (b.len - 128))).val, fwDigest := (sha256 (imgFirmware b)).val } }

/-- The power-on defaults of the injection: groups that fail are shown; FAULT_N is asserted with cause INJECTION (R323, R324). A cause that SAF_FAULT_CAUSE holds already stays. -/
def State.inject (s : State) (fail : Nat) : State :=
  let s1 := (s.wr Reg.safInjPass ((0x3FF - fail % 0x400) + 0x80000000)).wr Reg.safInjFail (fail % 0x400)
  if fail % 0x400 = 0 then { s1 with saf := { s1.saf with hold := s1.bitAt Reg.safStatus 4 || s1.pwt.shutdown } }
  else
    let s2 := (s1.safErr 9 0 0x14 none).recordFault { cause := 0x14, subsys := 14, unit := 0, tb := s.now }
    let s3 := if s2.rd Reg.safFaultCause = 0 then (s2.wr Reg.safFaultCause (0x14 + 14 <<< 8)).wr64 Reg.safFaultTb s.now else s2
    { s3.assertFaultN with saf := { s3.saf with hold := true } }

/-- READY: partitions may process, and FAULT_N is released where nothing holds it (R318, R332, R372). -/
def State.becomeReady (s : State) : State :=
  let s1 := ((s.setDevState 5).setFld Reg.safStatus 2 2 0)
  let s2 := { s1 with sec := { s1.sec with restart := 0, started := true } }
  (loopUp 16 (fun p (x : State) => if !(x.processing p) && x.mayProcess p then x.startPart p else x) s2).settleFaultN

/-- Phases 6 to 8 with an image in force. -/
def State.finishStart (s : State) (t : StartFacts) (b : Blob) : State × Bool :=
  let s1 := ((s.phase 6 3).applyImage b).startLoop
  if !t.ctrlReady then (s1.startFail 6, false)
  else
    let s2 := ((s1.phaseEnd 6).phase 7 4).inject t.injFail.toNat
    ((((s2.phaseEnd 7).phase 8 5).becomeReady).phaseEnd 8, true)

/-- Phases 3 to 8 for an image that pass 1 reads as `b` and pass 2 as `b2`. -/
def State.takeImage (s : State) (t : StartFacts) (b b2 : Blob) (host : Bool) : State × Taken :=
  let s1 := s.phase 3 2
  match checkFirst s1 b with
  | (some r, v) => (s1.noteReject r v true, .refused r)
  | (none, v) =>
    let s2 := ((s1.wr Reg.secVerify v).phaseEnd 3).phase4 t b
    if !s2.2 then (s2.1, .failed)
    else if (sha256 b).val ≠ (sha256 b2).val then
      let r : Rej := { code := 0x05 }
      ((s2.1.bootErr 5 0).noteReject r v false, .refused r)
    else match checkImage s2.1 b false with
      | (some r, w) => (s2.1.noteReject r w true, .refused r)
      | (none, w) =>
        let s3 := ((((s2.1.wr Reg.secVerify w).phase 5 3).keepImage b s2.1.sec.half).setFld Reg.secBootStatus 2 1 (b2n host)).phaseEnd 5
        let s4 := s3.finishStart t b
        (s4.1, if s4.2 then .applied else .failed)

/-- A flash that gives no image, by the strap: FAILED, or WAIT_IMAGE (R377). -/
def State.flashFailed (s : State) (b cause : Nat) : State :=
  let only := decide (s.fld Reg.secBootStatus 0 2 = 0)
  let s1 := (s.bootErr b (if only then cause else 0)).setFld Reg.secBootStatus 3 1 1
  if only then s1.startFail cause else s1.setDevState 1

/-- From phase 3 on with the strapped source (R374, R377). -/
def State.fromPhase3 (s : State) (t : StartFacts) : State :=
  let src := s.fld Reg.secBootStatus 0 2
  let s1 := if src = 3 then s.bootErr 8 0 else s
  if src = 1 then s1.setDevState 1
  else match t.flash with
    | none => (s1.phase 3 2).flashFailed 3 3
    | some b =>
      match s1.takeImage t b t.flash2 false with
      | (s2, .refused _) => s2.flashFailed 4 4
      | (s2, _) => s2

/-- COLD_START (R371, R378): from the later of the releases of POR_N and PERST_N; not during thermal shutdown (R42). -/
def State.coldStart (s : State) (t : StartFacts) : State :=
  if !s.sec.coldDue || s.pins.porLow || s.pwt.shutdown then s
  else
    let s1 := { s with
      pins := { s.pins with perstLow := false },
      sec := { s.sec with coldDue := false, trained := none, started := false, restart := 0, half := 0 } }
    let s2 := s1.phase1 t
    if s2.2 then (s2.1.phase2 t).fromPhase3 t else s2.1

/-- SUPPLY_IMAGE (R376): the host's image goes through phases 3 to 8. Result code and result bytes (R364). -/
def State.supplyImage (s : State) (t : StartFacts) (ok : Bool) (b b2 : Blob) : State × Nat × Nat :=
  if !ok then (s, 0x04, 0)
  else match s.takeImage t b b2 true with
    | (s1, .refused r) => (s1.setDevState 1, if r.code = 0x05 ∨ r.code = 0x06 then 0x0A else 0x09, r.image)
    | (s1, .applied) => (s1, 0, 0)
    | (s1, .failed) => (s1, 0x06, 0)

/-! ### Resets of the whole device (Table 14.7) -/

/-- Every unit outside the always-on domain at reset values; what resets keep stays (R342, R371). Burns, the JTAG challenge and the fuses stand in always-on storage. -/
def State.resetUnits (s : State) : State :=
  let temps := fun (a : Nat) => decide (0x200030 ≤ a) && decide (a < 0x200034) || decide (0x200040 ≤ a) && decide (a < 0x200070) || decide (0x200100 ≤ a) && decide (a < 0x200300)
  let s1 := match s.mbxRun 0 with | some m => if m.opcode = 0x31 then s.calFinish m else s | none => s
  let s2 := s1.clearSome (fun a => !(keptReg a || temps a))
  let off := match s2.hottest with | some (_, v) => decide (s2.thermThr 3 ≤ v) | none => false
  { s2 with
    mem := [], ecc := [], hep := { smbusArm := s.hep.smbusArm }, col := {}, saf := { reports := [] }, pool := {}, hal := {}, cfg := {},
    pwt := { thermLevel := s.pwt.thermLevel, thermCrit := s.pwt.thermCrit, shutdown := s.pwt.shutdown && off },
    cores := [], pln := {}, ing := {}, dec := {}, enc := {}, pfe := {}, trk := {}, dram := {},
    pins := { s2.pins with thermtripN := s.pins.thermtripN && off },
    sec := { s2.sec with trained := none, staged := none, started := false, restart := 0, half := 0, coldDue := true, limitHit := false } }

/-- PERST_N asserted (Table 14.7, R372): everything but the always-on record resets, the rails take the regulator default unless thermal shutdown stays (R42), FAULT_N falls with cause HOST_RESET where a class S partition was active. -/
def State.perst (s : State) : State :=
  let was := s.sActive
  let set := if was then s.joinReleaseSet.saf.releaseSet else 0
  let s0 := s.resetUnits
  let s1 := if s0.pwt.shutdown then (s0.setRailMv 0 600).setRailMv 1 650 else (s0.defaultRail 0).defaultRail 1
  let s2 := { s1 with pins := { s1.pins with perstLow := true }, saf := { s1.saf with releaseSet := set, hold := s1.pwt.shutdown } }
  let s3 := if was then s2.recordFault { cause := 0x16, subsys := 1, unit := 0, tb := s.now } else s2
  s3.assertFaultN

/-- POR_N asserted while the rails stay up (R371, R372). -/
def State.porAssert (s : State) : State :=
  let s1 := s.resetUnits
  { s1 with pins := { s1.pins with porLow := true } }.assertFaultN

/-- A hot reset, link down or PF function-level reset: every partition ends, FAULT_N is asserted with cause HOST_RESET, and the device restarts with the retained image (R322, R392). Before the first READY, in WAIT_IMAGE and in FAILED the state stays. -/
def State.warmReset (s : State) (kind : Nat) (bit : Option Nat) : State :=
  let s1 := (match bit with | some b => s.raise { idx := 0, unit := 0, bit := b } | none => s).abortRestructure
  let s2 := ((s1.recordFault { cause := 0x16, subsys := 1, unit := 0, tb := s.now }).joinReleaseSet).assertFaultN
  let s3 := (loopUp 16 (fun f (x : State) => x.mbxAbort f) s2)
  let s4 := (List.range 16).foldl (fun (x : State) p => if (Tab.find x.cfg.parts p).isSome then x.endPartition p else x) s3
  let s5 := { s4.resetFns with hep := { smbusArm := s.hep.smbusArm } }.setFld Reg.mgmtFuncState 0 16 1
  if s.devState = 5 ∨ s.devState = 6 then
    let s6 := (s5.setDevState 6).setFld Reg.mgmtStatus 4 1 0
    { s6 with sec := { s6.sec with restart := kind, restartTb := s.now } }
  else s5

/-- HOT_RESET (R342): a hot reset, or link down, whose bit of MGMT_ERR is that of a link down while READY (Table 14.18). -/
def State.hotReset (s : State) (linkDown : Bool) : State :=
  s.warmReset 2 (if linkDown then (if s.devState = 5 then some 7 else none) else some 6)

/-- PF_FLR (R322, R342). -/
def State.pfFlr (s : State) : State := s.warmReset 3 (some 5)

/-! ### Restart (R387 to R392, Table 16.6) -/

/-- What the collector still holds is delivered: at most one record a turn. -/
def State.drainCollector (s : State) : State :=
  let count := fun (l : List (List Rec)) => l.foldl (fun (n : Nat) x => n + x.length) 0
  let n := count s.col.queue + count s.col.stage + s.col.frames.foldl (fun (k : Nat) e => k + e.2.length) 0 + 18
  loopUp n (fun _ (x : State) => (loopUp 18 (fun p (y : State) => y.stageRecord p) x).collectorTurn) s

/-- Steps of Table 16.6. -/
def State.rstep (s : State) (k : Nat) : State := s.setFld Reg.secBootStatus 8 4 k

/-- Is a DRAM byte in a rank that the image retains (Table 15.11)? -/
def State.inRetained (s : State) (a : Nat) : Bool := s.dram.retain.testBit (2 * s.chanOf a + s.hashBit 6 a)

/-- Step 1: work ends; a safe-state restart aligns counts and keeps the host's state, another resets the units' registers. -/
def State.restart1 (s : State) : State :=
  let s1 := ((s.setDevState 6).setFld Reg.safStatus 3 1 1).rstep 1
  let s2 := if s.sec.restart = 1 then s1.drainCollector else s1
  let s3 := loopUp 16 (fun p (x : State) => if x.processing p then x.stopPart p else x) s2
  if s.sec.restart = 1 then s3.loseWork
  else
    let s4 := (((s3.dropUnits).dropIngress).dropCollector).clearSome (fun a => !(keptWarm a))
    { s4.setFld Reg.mgmtFuncState 0 16 1 with enc := {}, pool := {}, hal := {} }

/-- Does a DRAM window lie in retained ranks: every populated channel's rank of each of its MiB (R283, R289, R391)? -/
def State.windowRetained (s : State) (w : Nat × Nat) : Bool :=
  loopUp (w.2 / 0x100000) (fun k (ok : Bool) =>
    let b := w.1 + 0x100000 * k
    let ranks := if s.hashMask 6 % 2 ^ 20 = 0 then [s.hashBit 6 b] else [0, 1]
    ok && (List.range 4).all (fun c => !(s.bitAt Reg.ddrPop c) || ranks.all (fun r => s.dram.retain.testBit (2 * c + r)))) true

/-- The models of a class S partition whose model window is not retained go at a restart, and its sequences are invalid (R391). -/
def State.loseModels (s : State) (p : Nat) : State :=
  let kept := match (Tab.read (fun _ => []) s.cfg.windows p)[s.partFld p 42 0 8]? with
    | some w => s.windowRetained w
    | none => true
  if !(s.classS p) || kept || (s.pln.models.all (fun m => decide (m.part ≠ p))) then s
  else
    let s1 := { s with
      pln := { s.pln with models := s.pln.models.filter (fun m => decide (m.part ≠ p)) },
      saf := { s.saf with lostModels := s.saf.lostModels ||| BitVec.ofNat 16 (2 ^ p) } }
    (s1.partSeqs p).foldl (fun (x : State) i => x.setSeq i (putBits (x.seq i) 7 1 0)) s1

/-- Step 3: training restored, the retained ranks active, every other DRAM byte without its contents (R289); models in ranks that are not retained are lost (R391). -/
def State.restart3 (s : State) : State :=
  let s1 := s.rstep 3
  let ranks := fun (x : Nat) => bits s.dram.retain (2 * x) 2
  let s2 := (List.range 4).foldl (fun (x : State) c =>
    if s.bitAt Reg.ddrPop c then
      ((((x.setRank c 0 0).setRank c 1 (if s.rankState c 1 = 3 then 3 else 0)).setFld (Reg.ddrChStatus c) 0 2 2).setFld (Reg.ddrChStatus c) 6 1 (b2n (decide (ranks c ≠ 0)))).setFld (Reg.ddrChStatus c) 7 1 1
    else x) s1
  let s3 := { s2 with
    mem := s.mem.filter (fun e => !(decide (memKind e.1 = some 0)) || s.inRetained e.1),
    ecc := s.ecc.filter (fun e => !(decide (memKind (8 * e.1) = some 0)) || s.inRetained (8 * e.1)) }
  loopUp 16 (fun p (x : State) => x.loseModels p) s3

/-- The owned scratchpad banks that were on before the domains took their initial states are on again. -/
def State.banksStay (s t : State) : State :=
  (List.range 8).foldl (fun (x : State) c =>
    (List.range 16).foldl (fun (y : State) bk =>
      let d := 64 + 16 * c + bk
      if (List.range 16).any (fun p => (s.scratchMask p c).testBit bk) && decide (s.pdState d = 2) then y.setPd d 2 else y) x) t

/-- What a takeover of a core pair brought about stays until power-on, PERST_N or RESTRUCTURE (R309): the pair that has served stays locked, with the slots and banks that moved to it. -/
def State.takeoverStays (s t : State) : State :=
  if !(s.bitAt Reg.safStatus 6) then t
  else
    let t1 := loopUp 4 (fun k (x : State) =>
      let y := x.setFld Reg.safPairState (4 * k) 2 (s.pairState k)
      if s.pairState k = 1 then (y.setLock (2 * k) true).setLock (2 * k + 1) true else y) t
    let t2 := { t1 with pln := { t1.pln with slots := s.pln.slots }, cfg := { t1.cfg with scratch := s.cfg.scratch } }
    s.banksStay (t2.setFld Reg.safStatus 6 1 1)

/-- Step 5 of a safe-state restart: domain states again, with what a takeover switched and what stays off; calibration; PA and PB load. -/
def State.reapply (s : State) (b : Blob) : State :=
  let s1 := s.applyDomains b
  let s3 := if s.bitAt Reg.safStatus 6 then s.banksStay s1 else s1
  let s4 := if s.bitAt Reg.safStatus 5 then (s3.setPd 252 2).loadPair (imgFirmware b) 3 else s3
  let s5 := s.pwt.gated.foldl (fun (x : State) c => x.gateArrays c) s4
  ((s5.applyCals b).loadPair (imgFirmware b) 0).loadPair (imgFirmware b) 1

/-- Step 5 after a hot reset or a PF function-level reset: every section applied; what counting needs of the streams stays (R51). -/
def State.applyAfresh (s : State) (b : Blob) : State :=
  let kept := s.ing.strm.map (fun (e : Nat × InStream) => (e.1, e.2.counting))
  let s1 := s.takeoverStays (s.applyImage b)
  { s1 with ing := { s1.ing with strm := kept } }

/-- The safe-state entries within restart_window of the latest (R321). -/
def State.recentEntries (s : State) : List Nat :=
  let w := 1000000000 * s.fld Reg.safLimits1 24 8
  let last := s.saf.entries.foldl (fun (m t : Nat) => max m t) 0
  s.saf.entries.filter (fun t => decide (last < t + w))

/-- restart_limit reached: safe hold (R321). -/
def State.checkLimit (s : State) : State :=
  let es := s.recentEntries
  let s1 := { s with saf := { s.saf with entries := es } }
  if s.bitAt Reg.safStatus 4 = true ∨ es.length < max 1 (s.fld Reg.safLimits1 16 8) then s1
  else
    let s2 := (s1.setFld Reg.safStatus 4 1 1).safErr 13 0 0x17 none
    let s3 := s2.recordFault { cause := 0x17, subsys := 14, unit := 0, tb := s.now }
    { s3 with saf := { s3.saf with hold := true }, sec := { s3.sec with limitHit := true } }

/-- Step 6 and the end: injection, the limit, the duration, RESTART_DONE for a safe-state restart, READY. -/
def State.restart6 (s : State) (t : StartFacts) : State :=
  let safe := decide (s.sec.restart = 1)
  let s1 := (((s.rstep 6).inject t.injFail.toNat).checkLimit).wr Reg.safRestartNs (min (s.now - s.sec.restartTb) 0xFFFFFFFF)
  let s2 := if safe then s1.safRecordAll 0x64 0 0 0 ((s.now - s.sec.restartTb) / 1000) else s1
  s2.becomeReady

/-- A fault detected during the restart: recorded, and the restart begins again (R390). -/
def State.restartFault (s : State) (cause : Nat) : State :=
  let s1 := ((s.recordFault { cause := cause, subsys := 14, unit := 0, tb := s.now }).joinReleaseSet).assertFaultN
  let s2 := (((s1.setFld Reg.safStatus 2 1 1).bump Reg.safSafeCnt 1).safErr 12 0 0 none)
  { s2 with saf := { s2.saf with entries := s2.saf.entries ++ [s.now] } }

/-- Steps 4 to 6: the digest of the half in force compared, the sections applied, the injection; a damaged image takes the cold path (R390). -/
def State.restart4 (s : State) (t : StartFacts) : State :=
  let b := s.imageInForce
  let s1 := s.rstep 4
  if (sha256 b).val ≠ s.sec.halfDigest then
    let s2 := (s1.bootErr 6 0).clearSome (fun a => !(keptWarm a) && !(decide (0x1000 ≤ a) && decide (a < 0x18100)) && decide (a < 0x100000000) && decide (a ≠ Reg.mgmtFuncState))
    { s2 with sec := { s2.sec with trained := none, restart := 0 }, pln := {} }.fromPhase3 t
  else
    let s2 := if s.sec.restart = 1 then (s1.rstep 5).reapply b else (s1.rstep 5).applyAfresh b
    if !t.ctrlReady then s2.startFail 6 else s2.restart6 t

/-- RESTART (R388, Table 16.6), with the cause of a fault detected during it. It waits until the safety island has taken every report. -/
def State.restart (s : State) (t : StartFacts) (fault : Option Nat) : State :=
  if s.sec.restart = 0 || !s.saf.reports.isEmpty || s.pwt.shutdown || s.pins.porLow then s
  else
    let s1 := s.restart1.rstep 2
    let s2 := if t.fuseCe then s1.bootErr 0 0 else s1
    match fault with
    | some c => s2.restartFault c
    | none => if t.fuseUe then (s2.bootErr 1 1).startFail 1 else s2.restart3.restart4 t

/-! ### Power -/

/-- POWER_ON (R371, R383): POR_N is released after the rails; the straps are sampled and everything but the fuses is as at reset. -/
def State.powerOn (s : State) (src addr : BitVec 2) : State :=
  let gone := s.sec.factoryGone || s.sec.row0.valid || s.sec.row1.valid
  let s1 := { State.reset with
    hostMem := s.hostMem, out := s.out, fresh := s.fresh,
    pins := { State.reset.pins with bootSrc := src, i2cAddr := addr },
    sec := { State.reset.sec with
      revoked := s.sec.revoked, burnt := s.sec.burnt, jtagBurnt := s.sec.jtagBurnt, row0 := s.sec.row0, row1 := s.sec.row1, factoryGone := gone } }
  (s1.setFld Reg.secBootStatus 0 2 src.toNat).setFld Reg.secStatus 0 2 (if s.sec.jtagBurnt then 2 else 0)

/-- A security burn in progress when the power goes: the words whose pulse had started are burnt, which ones is open (R399). -/
def State.burnAtPowerLoss (s : State) : State :=
  match s.sec.burn with
  | none => s
  | some (op, arg) =>
    let r := s.takeFree 7
    let s1 := { r.2 with sec := { r.2.sec with burn := none } }
    if op = 1 then (if r.1 % 2 = 1 then { s1 with sec := { s1.sec with revoked := s1.sec.revoked ||| BitVec.ofNat 4 (2 ^ arg) } } else s1)
    else if op = 2 then { s1 with sec := { s1.sec with burnt := s.sec.burnt + r.1 % (arg - s.sec.burnt + 1) } }
    else (if r.1 % 2 = 1 then { s1 with sec := { s1.sec with jtagBurnt := true } } else s1)

/-- A calibration burn in progress when the power goes: whether its valid fuse was burnt is open (R386). -/
def State.calAtPowerLoss (s : State) : State :=
  match s.mbxRun 0 with
  | none => s
  | some m =>
    if m.opcode = 0x31 ∧ m.code = 0 then
      let r := s.takeFree 1
      if r.1 = 1 then r.2.setFuseRow m.arg { r.2.fuseRow m.arg with valid := true } else r.2
    else s

/-- POWER_OFF (R393): all state but the fuses is lost; POR_N is low until the next power-on. -/
def State.powerOff (s : State) : State :=
  let s1 := s.burnAtPowerLoss.calAtPowerLoss
  { State.reset with
    hostMem := s.hostMem, out := s.out, fresh := s1.fresh,
    pins := { State.reset.pins with aonUp := false, porLow := true },
    sec := { State.reset.sec with
      revoked := s1.sec.revoked, burnt := s1.sec.burnt, jtagBurnt := s1.sec.jtagBurnt, row0 := s1.sec.row0, row1 := s1.sec.row1, factoryGone := s1.sec.factoryGone } }

end Sys2Proof.Machine
end

