-- ==== Sys2Proof/Machine/ErrBlock.lean ====
section
/-!
DEFINITION. The ERR block: the error record, sticky bits, and the end that every command shares (R435 to R442, Tables 19.1, 19.4, 19.5).
-/
namespace Sys2Proof.Machine

/-- The copies of the error register of an index. -/
def errUnits (idx : Nat) : List Nat :=
  match idx with
  | 1 => List.range 8
  | 2 => [8, 9]
  | 6 => List.range 8
  | _ => [0]

/-- The copy of an error register that a unit's events set: one register serves every unit of most indices. -/
def errCopy (idx unit : Nat) : Nat := if idx = 1 ∨ idx = 2 ∨ idx = 6 then unit else 0

/-- ERR_SUMMARY as the registers give it (R436): bit i while any copy of register i holds a set bit, bit 31 the valid bit of the first capture. -/
def State.errSummary (s : State) : Nat :=
  loopUp 19 (fun i n => n + (b2n ((errUnits i).any (fun u => decide (s.rd (errReg i u) ≠ 0)))) <<< i) 0
    + (b2n (s.bitAt Reg.errFirstStatus 0)) <<< 31

/-- Registers that copy others: FAULT_N and safe hold in SAF_STATUS and MGMT_STATUS (Tables 13.12, 14.17), ERR_SUMMARY. -/
def State.mirror (s : State) : State :=
  let f := b2n s.pins.faultN
  let s1 := ((s.setFld Reg.safStatus 1 1 f).setFld Reg.mgmtStatus 6 1 f).setFld Reg.mgmtStatus 5 1 (s.fld Reg.safStatus 4 1)
  s1.wr Reg.errSummary s1.errSummary

/-- What every command ends with: sync objects that wait for their reset (R343), the copies above, the source waits that bands see met (R115); the queue of commands is `q`. -/
def State.finish (s : State) (q : List Instr) : State := { s.settleResets.mirror.noteMet with pending := q }

/-! ### Arrivals (R436 to R438) -/

/-- The delivery bound in ns (R438). -/
def deliveryBound : Nat := 1450

/-- The layout of ERR_FIRST_SRC and ERR_LAST_SRC (Table 19.5). -/
def ErrEvent.src (e : ErrEvent) : Nat := errSubsys e.idx + e.idx <<< 8 + (e.bit % 32) <<< 16 + (e.unit % 256) <<< 24

/-- The layout of ERR_FIRST_AUX. -/
def State.errAux (s : State) (e : ErrEvent) : Nat :=
  (match e.part with | some p => p % 16 + 16 + b2n (s.classS p) <<< 5 | none => 0) + (e.aux % 256) <<< 8 + (e.detail % 65536) <<< 16

/-- May an event arrive now: no event that waits was stamped earlier by more than the delivery bound? -/
def arrives (pend : List ErrEvent) (e : ErrEvent) : Bool := pend.all (fun o => decide (e.tb ≤ o.tb + deliveryBound))

/-- The order within a handshake: ascending index, then unit, then bit. -/
def ErrEvent.before (a b : ErrEvent) : Bool :=
  decide (a.idx < b.idx) || (decide (a.idx = b.idx) && (decide (a.unit < b.unit) || (decide (a.unit = b.unit) && decide (a.bit ≤ b.bit))))

/-- An event put in its place of that order. -/
def placeEvent (e : ErrEvent) : List ErrEvent → List ErrEvent
  | [] => [e]
  | x :: t => if x.before e then x :: placeEvent e t else e :: x :: t

/-- First-error capture (R437): taken while valid reads 0, else more is set. -/
def State.errCapture (s : State) (e : ErrEvent) (tie : Bool) : State :=
  if s.bitAt Reg.errFirstStatus 0 then s.setFld Reg.errFirstStatus 1 1 1
  else
    let s1 := (s.wr Reg.errFirstSrc e.src).wr Reg.errFirstAux (s.errAux e)
    ((s1.wr64 Reg.errFirstAddr e.addr).wr64 Reg.errFirstTb e.tb).wr Reg.errFirstStatus (1 + 4 * b2n tie)

/-- One event at the ERR block: counted, offered to the capture, kept as the last (R436). -/
def State.errArrive (s : State) (e : ErrEvent) (tie : Bool) : State :=
  let s1 := (s.bump (Reg.errEventCnt e.idx) 1).bump64 Reg.errTotal 1
  ((s1.errCapture e tie).wr Reg.errLastSrc e.src).wr64 Reg.errLastTb e.tb

/-- The events of a handshake one after the other; a tie decides the capture where more than one is left for it. -/
def State.errTake (s : State) : List ErrEvent → State
  | [] => s
  | e :: t => State.errTake (s.errArrive e (!t.isEmpty)) t

/-- ERROR_EVENT (R438): one handshake. `picks` names by their places the events that wait at the input, of those that may arrive now. -/
def State.errorEvent (s : State) (picks : List Nat) : State :=
  let all := (List.range s.err.pend.length).zip s.err.pend
  let now := all.filter (fun (e : Nat × ErrEvent) => picks.contains e.1 && arrives s.err.pend e.2)
  let rest := all.filter (fun (e : Nat × ErrEvent) => !(picks.contains e.1 && arrives s.err.pend e.2))
  let s1 := { s with err := { s.err with pend := rest.map (fun (e : Nat × ErrEvent) => e.2) } }
  s1.errTake (now.foldl (fun (l : List ErrEvent) (e : Nat × ErrEvent) => placeEvent e.2 l) [])

/-! ### Writes of 1 to sticky bits (R439, R440) -/

/-- Do the blocks of subsystems 2 to 13 discard a write to `a`: before the first READY (R382)? -/
def State.unitsAsleep (s : State) (a : Nat) : Bool := decide (0x500000 ≤ a) && decide (a < 0x2000000) && !s.sec.started

/-- STICKY_BIT_CLEAR (R440): the bits written 1 clear; a bit that a new event reaches in the same handshake reads 1, and vector 1 fires for it as for a new edge (R339). -/
def State.stickyClear (s : State) (idx unit mask : Nat) (again : List ErrEvent) : State :=
  let a := errReg idx unit
  if 18 < idx ∨ (errUnits idx).contains unit = false then s
  else
  let s1 := if s.unitsAsleep a then s else s.wr a (s.rd a &&& (0xFFFFFFFF - mask % 2 ^ 32))
  again.foldl (fun (x : State) e => if e.idx = idx ∧ errCopy idx e.unit = unit then x.raise e else x) s1

/-- ERR_FIRST_STATUS_WRITE (R439, R440): writing 1 to valid re-arms the capture before the events of the same handshake arrive. -/
def State.errFirstWrite (s : State) (v : Nat) (picks : List Nat) : State :=
  (if bit v 0 then s.setFld Reg.errFirstStatus 0 3 0 else s).errorEvent picks

end Sys2Proof.Machine
end

