-- ==== Sys2Proof/Machine/Security.lean ====
section
/-!
DEFINITION. Security fuses, attestation and JTAG (R399, R400, R405 to R408, Tables 17.1, 17.2, 17.4, 17.5).
-/
namespace Sys2Proof.Machine

/-! ### Burning security fuses (R399, R400) -/

/-- Does CAL_COMMIT run? -/
def State.calBurning (s : State) : Bool := match s.mbxRun 0 with | some m => decide (m.opcode = 0x31) | none => false

/-- The key slot of the image in force. -/
def State.imageSlot (s : State) : Nat := s.fld Reg.secStatus 12 2

/-- The rollback field of the image in force (header byte 24). -/
def State.imageRollback (s : State) : Nat := (s.rdByte (s.sec.region + 0x2000000 * s.sec.half + 24)).toNat

/-- The result of a fuse request, in the order of Table 17.1; 0 burns. -/
def State.fuseResult (s : State) (op slot confirm : Nat) : Nat :=
  if confirm ≠ 0x5EC0 ∨ op = 0 ∨ 3 < op then 1
  else if s.devState ≠ 5 ∨ s.sActive = true then 2
  else if s.sec.burn.isSome || s.calBurning then 3
  else if op = 1 ∧ ((s.fld Reg.secStatus 4 4).testBit slot = false ∨ s.imageSlot ≤ slot) then 4
  else 0

/-- A fuse request (R400): refused with its result, or the burn runs. While an earlier burn runs, state stays burning. -/
def State.fuseRequest (s : State) (op slot confirm : Nat) : State :=
  let r := s.fuseResult op slot confirm
  if r ≠ 0 then s.wr Reg.secFuseStatus ((if s.sec.burn.isSome then 1 else 3) + r <<< 4)
  else
    let arg := if op = 1 then slot else if op = 2 then max s.sec.burnt (min 64 s.imageRollback) else 0
    { s.wr Reg.secFuseStatus 1 with sec := { s.sec with burn := some (op, arg) } }

/-- The fuses that a burn leaves burnt; a DISABLE_JTAG burn takes effect at the next power-on (R408). -/
def State.burnApplied (s : State) (op arg : Nat) : State :=
  if op = 1 then { s with sec := { s.sec with revoked := s.sec.revoked ||| BitVec.ofNat 4 (2 ^ arg) } }.showFuses
  else if op = 2 then { s with sec := { s.sec with burnt := arg } }.showFuses
  else { s with sec := { s.sec with jtagBurnt := true } }

/-- FUSE_BURN_COMPLETE (R399, R400): the read-back compares, or it does not: which words then stand burnt is open. -/
def State.fuseDone (s : State) (ok : Bool) : State :=
  match s.sec.burn with
  | none => s
  | some (op, arg) =>
    if ok then
      let s1 := { s with sec := { s.sec with burn := none } }.burnApplied op arg
      s1.wr Reg.secFuseStatus 2
    else
      let s1 := s.burnAtPowerLoss.showFuses
      (s1.wr Reg.secFuseStatus (2 + 5 <<< 4)).raise { idx := 17, unit := 0, bit := 2 }

/-! ### JTAG (R407, R408) -/

/-- SEC_STATUS.jtag: 0 LOCKED, 1 UNLOCKED, 2 DISABLED. -/
def State.jtag (s : State) : Nat := s.fld Reg.secStatus 0 2

/-- Do JTAG_CHALLENGE and JTAG_RESPONSE end with WRONG_STATE? -/
def State.jtagBarred (s : State) : Bool := decide (s.jtag = 2) || s.sActive || decide (8 ≤ s.rd Reg.secJtagFailCnt)

/-- The validity of a challenge in ns. -/
def challengeLife : Nat := 60000000000

/-- JTAG_CHALLENGE: the challenge of the TB and the counter, and the serial number; the counter goes on (R407). -/
def State.jtagChallenge (s : State) : State × Nat × Nat :=
  if s.jtagBarred then (s, 0x06, 0)
  else
    let ch := (Config.challenge s.now s.sec.challenges).toNat
    ({ s with sec := { s.sec with challenge := some (ch, s.now), challenges := s.sec.challenges + 1 } }, 0, ch + (s.rd64 Reg.secDevSerial) <<< 256)

/-- Is a signature one of a programmed slot that is not revoked, over a challenge followed by the serial number (R396, R407)? -/
def State.jtagSigned (s : State) (ch r q : Nat) : Bool :=
  let m : Blob := { len := 40, val := ch + (s.rd64 Reg.secDevSerial) <<< 256 }
  let keys := recoverKeys (beInt (sha256 m)) r q
  sigRange r q && (List.range 4).any (fun k => (s.fld Reg.secStatus 4 4).testBit k && !((s.fld Reg.secStatus 8 4).testBit k)
    && keys.any (fun p => decide (keyDigest p = some { len := 32, val := s.rdWords (Reg.secKeyHash k) 8 })))

/-- A refused response: counted (R407). -/
def State.jtagRefused (s : State) : State := (s.bump Reg.secJtagFailCnt 1).raise { idx := 17, unit := 0, bit := 3 }

/-- JTAG_RESPONSE verified; the challenge serves one response. What an accepted one does comes about at the command's end. -/
def State.jtagResponse (s : State) (r q : Nat) : State × Nat × Nat :=
  let s1 := { s with sec := { s.sec with challenge := none } }
  match s.sec.challenge with
  | none => (s1.jtagRefused, 0x0A, 0)
  | some (ch, t) => if s.now < t + challengeLife ∧ s.jtagSigned ch r q = true then (s1, 0, 0) else (s1.jtagRefused, 0x0A, 0)

/-- An accepted response (R408): the TAP opens, the identity key is erased, safe hold with FAULT_N. -/
def State.jtagOpen (s : State) : State :=
  let s1 := ((s.setFld Reg.secStatus 0 2 1).setFld Reg.secStatus 3 1 1).raise { idx := 17, unit := 0, bit := 4 }
  let s2 := s1.setFld Reg.safStatus 4 1 1
  let s3 := (s2.recordFault { cause := 0x17, subsys := 16, unit := 0, tb := s.now }).assertFaultN
  { s3 with saf := { s3.saf with hold := true } }

/-- JTAG_CHALLENGE_EXPIRY (R407). -/
def State.challengeExpiry (s : State) : State :=
  match s.sec.challenge with
  | some (_, t) => if t + challengeLife ≤ s.now then { s with sec := { s.sec with challenge := none } } else s
  | none => s

/-- SEC_JTAG_RELOCK written (R408): 1 closes the TAP. -/
def State.jtagRelock (s : State) (v : Nat) : State :=
  if bit v 0 && decide (s.jtag = 1) then s.setFld Reg.secStatus 0 2 0 else s

/-! ### Attestation (R405, R406) -/

/-- The place of a model in a report. -/
def Model.place (m : Model) : Nat := 65536 * m.part + m.handle

/-- A model put in ascending order. -/
def placeModel (m : Model) : List Model → List Model
  | [] => [m]
  | x :: t => if x.place ≤ m.place then x :: placeModel m t else m :: x :: t

/-- The models that a report lists: those of the requester, or all. -/
def State.reportModels (s : State) (f : Nat) (all : Bool) : List Model :=
  (s.pln.models.filter (fun m => all || decide (m.part = f))).foldl (fun (l : List Model) m => placeModel m l) []

/-- A model entry of a report (Table 17.5). -/
def Model.entry (m : Model) : Blob := { len := 40, val := m.part + (m.handle % 65536) <<< 16 + (m.digest % 2 ^ 256) <<< 64 }

/-- The report without its signature. -/
def State.reportBody (s : State) (f nonce : Nat) (ms : List Model) : Blob :=
  let m := ms.length
  let idKey : Blob := { len := 64, val := s.rdWords Reg.secIdPub 16 }
  let head := 0x5450525A + 1 <<< 32 + f <<< 40 + m <<< 48 + (256 + 40 * m) <<< 64
    + (s.rd Reg.mgmtImageVer) <<< 96 + (s.rd Reg.mgmtFwVer) <<< 128 + (s.rd Reg.mgmtId1) <<< 160 + (s.rd Reg.secStatus) <<< 192
    + (s.fld Reg.secBootStatus 2 1 + (s.fld Reg.secBootStatus 12 2) <<< 1) <<< 224
  let rest := nonce <<< 256 + (s.now % 2 ^ 64) <<< 512 + (s.rd64 Reg.secDevSerial) <<< 576
    + (s.sec.imgDigest % 2 ^ 256) <<< 640 + (s.sec.fwDigest % 2 ^ 256) <<< 896 + (sha256 idKey).val <<< 1152
  ms.foldl (fun (b : Blob) x => Blob.append b x.entry) { len := 192, val := head + rest }

/-- Bytes of a report (Table 17.5). -/
def State.reportLen (s : State) (f : Nat) (all : Bool) : Nat := 256 + 40 * (s.reportModels f all).length

/-- Does a request ask for every partition (Table 17.4)? -/
def State.attestAll (s : State) (f : Nat) : Bool := (s.mbxArg f 44 1).testBit 0

/-- ATTEST refused: NOT_PERMITTED, WRONG_STATE, or BAD_ARG with the length that is needed (log entry 33). -/
def State.attestRefused (s : State) (f : Nat) : Option (Nat × Nat) :=
  let n := s.reportLen f (s.attestAll f)
  if s.attestAll f && decide (f ≠ 0) then some (0x02, 0)
  else if s.bitAt Reg.secStatus 3 then some (0x06, 0)
  else if s.mbxArg f 40 4 < n then some (0x03, n)
  else none

/-- ATTEST: the signed report written by DMA. -/
def State.attest (s : State) (f : Nat) : State × Nat × Nat :=
  if s.canIssue f = false then (s, 0x04, 0)
  else
    let ms := s.reportModels f (s.attestAll f)
    let n := 256 + 40 * ms.length
    let b := s.reportBody f (s.mbxArg f 0 32) ms
    let sg := ecdsaSign identityKey (sha256 b)
    (s.hostPost f (s.mbxArg f 32 8) n (Blob.append b { len := 64, val := sg.1 + sg.2 <<< 256 }).val false, 0, n)

end Sys2Proof.Machine
end

