-- ==== Sys2Proof/Machine/Commands.lean ====
section
/-!
DEFINITION. The mailbox commands of Table 14.11, and LONG_COMMAND_END (R225, R345, R346, R365 to R369, R376, R386, R405 to R408).
-/
namespace Sys2Proof.Machine

/-! ### Short commands -/

/-- GET_INFO's results: partition and class, rank, step period, then the three ranges. -/
def State.infoWords (s : State) (p : Nat) : Nat :=
  p + b2n (s.classS p) <<< 4 + (s.rank p) <<< 8 + (s.partFld p 2 0 16) <<< 16
    + (s.rd (Reg.halRangeSync p)) <<< 32 + (s.rd (Reg.halRangeQueue p)) <<< 64 + (s.rd (Reg.halRangeWatch p)) <<< 96

/-- The lowest sequence entry that is not in use. -/
def State.freeSeq (s : State) : Option Nat := (List.range 4096).find? (fun i => decide (s.seq i = 0))

/-- BIND (R225): the sequence entry of Table 9.8 that the arguments give. -/
def State.bind (s : State) (f : Nat) : State × Nat × Nat :=
  let st := s.mbxArg f 0 1
  let v := s.mbxArg f 1 1
  let m := s.mbxArg f 2 2
  let n := s.mbxArg f 4 1
  let q := s.mbxArg f 6 2
  if 95 < st ∨ s.stValid st = false ∨ 3 < v ∨ s.vwValid st v = false ∨ n = 0 ∨ 64 < n ∨ 0x3FFF ≤ q ∨ s.qType q ≠ 1 then (s, 0x03, 0)
  else if s.stPart st ≠ f ∨ s.qOwner q ≠ f then (s, 0x02, 0)
  else match s.freeSeq with
    | none => (s, 0x07, 0)
    | some i =>
      let e := st + v <<< 8 + f <<< 10 + m <<< 16 + n <<< 32 + (s.stPriority st) <<< 40 + (s.strmFld st 36 0 1) <<< 56 + q <<< 192
      (s.setSeq i (if s.seqReady e then e + 128 else e), 0, i)

/-- UNBIND: the entry goes at the next step start. -/
def State.unbind (s : State) (f : Nat) : State × Nat × Nat :=
  let i := s.mbxArg f 0 2
  if 4095 < i ∨ s.seq i = 0 then (s, 0x03, 0)
  else if seqPart (s.seq i) ≠ f then (s, 0x02, 0)
  else ({ s with pln := { s.pln with unbind := s.pln.unbind.filter (fun k => decide (k ≠ i)) ++ [i] } }, 0, 0)

/-- STREAM_START or STREAM_STOP of the stream that the arguments name. -/
def State.streamCmd (s : State) (f : Nat) (act : State → Nat → State × Nat) : State × Nat × Nat :=
  let st := s.mbxArg f 0 1
  if 95 < st ∨ s.stValid st = false then (s, 0x03, 0)
  else if s.stPart st ≠ f then (s, 0x02, 0)
  else let r := act s st; (r.1, r.2, 0)

/-- NOP. -/
def State.nopCmd (s : State) (f tag : Nat) : State := s.mbxShort f 0x00 tag (fun x => (x, 0, 0))

/-- GET_INFO. -/
def State.infoCmd (s : State) (f tag : Nat) : State := s.mbxShort f 0x01 tag (fun x => (x, 0, x.infoWords f))

/-- BIND. -/
def State.bindCmd (s : State) (f tag : Nat) : State := s.mbxShort f 0x20 tag (fun x => x.bind f)

/-- UNBIND. -/
def State.unbindCmd (s : State) (f tag : Nat) : State := s.mbxShort f 0x21 tag (fun x => x.unbind f)

/-- STREAM_START. -/
def State.startCmd (s : State) (f tag : Nat) : State := s.mbxShort f 0x22 tag (fun x => x.streamCmd f State.streamStart)

/-- STREAM_STOP. -/
def State.stopCmd (s : State) (f tag : Nat) : State := s.mbxShort f 0x23 tag (fun x => x.streamCmd f State.streamStop)

/-! ### Models -/

/-- What a command reads from host memory: as many bytes as its arguments name. -/
def State.readArg (s : State) (f : Nat) (b : Blob) : Blob := b.slice 0 (s.mbxArg f 8 4)

/-- The read of what a command's arguments name, where the function may issue it (R341, Table 14.9). -/
def State.fetchArg (s : State) (f : Nat) : State := if s.canIssue f then s.hostGet f (s.mbxArg f 0 8) (s.mbxArg f 8 4) else s

/-- LOAD_MODEL (R369, R401, R402): `ok` says whether the reads end without an error completion, `b` is what they return. The model counts as loaded at the command's end. -/
def State.loadModel (s : State) (f tag : Nat) (ok : Bool) (b : Blob) : State :=
  let s1 := s.mbxLong f 0x10 tag (fun y =>
    let x := y.fetchArg f
    if !ok || !(x.canIssue f) then (x, 0x04, 0)
    else
      let p := s.readArg f b
      let r := x.loadPackage f p (s.mbxArg f 12 8)
      (r.1, r.2, if r.2 = 0 then p.le 6 2 else 0))
  match (s.mbxStart f 0x10 tag).2, s1.mbxRun f, s1.pln.models.reverse with
  | true, some m, last :: rest =>
    if m.code = 0 then
      { s1 with pln := { s1.pln with models := rest.reverse } }.setMbx f (some { m with model := some last })
    else s1
  | _, _, _ => s1

/-- Do jobs of a model run? -/
def State.modelBusy (s : State) (p h : Nat) : Bool := s.pln.jobs.any (fun j => decide (j.part = p) && decide (j.model = h))

/-- UNLOAD_MODEL refused: no such model, or one that sequences name. -/
def State.unloadRefused (s : State) (f : Nat) : Option (Nat × Nat) :=
  let h := s.mbxArg f 0 2
  if (s.model f h).isNone then some (0x03, 0)
  else if s.pln.seqs.any (fun e => decide (seqPart e.2.toNat = f) && decide (seqModel e.2.toNat = h)) then some (0x0B, 0)
  else none

/-- UNLOAD_MODEL: the model goes at the command's end. -/
def State.unloadModel (s : State) (f tag : Nat) : State := s.mbxChecked f 0x11 tag (fun x => x.unloadRefused f) (fun x => (x, 0, 0))

/-! ### RESTRUCTURE (R365 to R367) -/

/-- Steps 1 and 2: the image read and checked; nothing else changes. -/
def State.stageImage (s : State) (ok : Bool) (b : Blob) : State × Nat × Nat :=
  if !ok || !(s.canIssue 0) then (s, 0x04, 0)
  else match checkImage s b true with
    | (some r, v) => (s.noteReject r v true, if r.code = 0x05 ∨ r.code = 0x06 then 0x0A else 0x09, r.image)
    | (none, v) => ({ s.wr Reg.secVerify v with sec := { s.sec with staged := some b } }, 0, 0)

/-- Step 3: every partition ends; sessions whose streams go stop. -/
def State.quiesce (s : State) : State :=
  let s1 := s.cfg.streams.foldl (fun (x : State) e => if x.stRun e.1 = 0 then x else x.setFld (Reg.ingStrmState e.1) 0 2 0) s
  let s2 := loopUp 16 (fun n (x : State) => x.sourceLost n) s1
  (List.range 16).foldl (fun (x : State) p => if (Tab.find x.cfg.parts p).isSome then x.endPartition p else x) s2

/-- Step 4: the staged image is in force, and its sections are applied. TB, sticky bits, suspect pairs and training values stay. -/
def State.commitImage (s : State) (b : Blob) : State :=
  let s1 := s.quiesce
  let s2 := { s1 with cores := [], enc := {}, col := {}, saf := { s1.saf with win := [] } }
  let s3 := loopUp 8 (fun c (x : State) => x.showCore c) s2
  let s4 := (s3.keepImage b (1 - s3.sec.half)).setFld Reg.secBootStatus 2 1 1
  { s4 with sec := { s4.sec with staged := none } }.applyImage b

/-- RESTRUCTURE, refused while a class S partition processes. -/
def State.restructure (s : State) (f tag : Nat) (ok : Bool) (b : Blob) : State :=
  s.mbxChecked f 0x30 tag (fun x => if x.sActive then some (0x06, 0) else none) (fun x => (x.fetchArg f).stageImage ok (s.readArg f b))

/-! ### CAL_COMMIT (R386) -/

/-- Step 1's refusals. -/
def State.calRefused (s : State) : Option (Nat × Nat) :=
  if s.mbxArg 0 0 2 ≠ 0xCA1C then some (0x03, 0)
  else if s.sActive || s.sec.burn.isSome then some (0x06, 0)
  else if s.sec.row0.spent && s.sec.row1.spent then some (0x07, 0)
  else none

/-- The shadow registers as a fuse row's words. -/
def State.shadowWords (s : State) : Tab Word :=
  (List.range 512).foldl (fun (t : Tab Word) i => Tab.write (fun _ => 0) t i (BitVec.ofNat 32 (s.rd (Reg.secCalShadow i)))) []

/-- Step 2: the lowest row not spent is burnt and read back. -/
def State.calBurn (s : State) (ok : Bool) : State × Nat × Nat :=
  let k := b2n s.sec.row0.spent
  ((s.setFuseRow k { valid := false, spent := true, words := s.shadowWords }).showCalRows, if ok then 0 else 0x0A, k)

/-- CAL_COMMIT: the row in progress is kept with the command. -/
def State.calCommit (s : State) (f tag : Nat) (ok : Bool) : State :=
  let s1 := s.mbxChecked f 0x31 tag State.calRefused (fun x => x.calBurn ok)
  match (s.mbxStart f 0x31 tag).2, s1.mbxRun f with
  | true, some m => s1.setMbx f (some { m with arg := m.result })
  | _, _ => s1

/-! ### SELF_TEST_FULL -/

/-- A full pass of every resource, the spare pair only where it is on; `fails` names those that fail. -/
def State.fullTest (s : State) (fails : Nat) : State :=
  loopUp 41 (fun r (x : State) =>
    if r = 39 ∧ x.pdState 252 ≠ 2 then x
    else (if fails.testBit r then x.chunkFailed r else x).passDone r) s

/-- SELF_TEST_FULL; its outcome is kept for its end. -/
def State.selfTestFull (s : State) (f tag fails : Nat) : State := s.mbxLong f 0x32 tag (fun x => (x, 0, fails))

/-! ### SUPPLY_IMAGE, ATTEST, JTAG -/

/-- SUPPLY_IMAGE (R376, R379): the image as its two reads return it. -/
def State.supplyCmd (s : State) (f tag : Nat) (t : StartFacts) (ok : Bool) (b b2 : Blob) : State :=
  s.mbxLong f 0x33 tag (fun x => ((x.fetchArg f).fetchArg f).supplyImage t (ok && x.canIssue f) (s.readArg f b) (s.readArg f b2))

/-- ATTEST. -/
def State.attestCmd (s : State) (f tag : Nat) : State := s.mbxChecked f 0x40 tag (fun x => x.attestRefused f) (fun x => x.attest f)

/-- JTAG_CHALLENGE. -/
def State.challengeCmd (s : State) (f tag : Nat) : State := s.mbxShort f 0x41 tag State.jtagChallenge

/-- JTAG_RESPONSE: r and s of its arguments. -/
def State.responseCmd (s : State) (f tag : Nat) : State :=
  s.mbxChecked f 0x42 tag (fun x => if x.jtagBarred then some (0x06, 0) else none) (fun x => x.jtagResponse (x.mbxArg f 0 32) (x.mbxArg f 32 32))

/-! ### The end of a long command (R345, R346) -/

/-- What a command that ends with OK brings about at its end. -/
def State.longEffect (s : State) (f : Nat) (m : MboxRun) : State :=
  match m.opcode with
  | 0x10 => match m.model with
    | some x => { s with pln := { s.pln with models := s.pln.models ++ [x] } }
    | none => s
  | 0x11 => { s with pln := { s.pln with models := s.pln.models.filter (fun x => !(decide (x.part = f) && decide (x.handle = m.arg))) } }
  | 0x30 => match s.sec.staged with
    | some b => s.commitImage b
    | none => s
  | 0x32 => s.fullTest m.result
  | 0x42 => s.jtagOpen
  | _ => s

/-- The results that a command publishes. -/
def State.longResult (s : State) (m : MboxRun) : Nat := if m.opcode = 0x32 then s.rd64 Reg.safTestFail else if m.opcode = 0x30 ∧ m.code = 0 then 0 else m.result

/-- LONG_COMMAND_END: the effect, DONE with its result, device_busy cleared; VF resets that it delayed take their steps. UNLOAD_MODEL waits for the model's jobs. -/
def State.longEnd (s : State) (f : Nat) : State :=
  match s.mbxRun f with
  | none => s
  | some m =>
    if m.opcode = 0x11 ∧ s.modelBusy f m.arg = true then s
    else
      let s1 := s.setMbx f none
      let s2 := if m.opcode = 0x31 then s1.calFinish m else if m.code = 0 then s1.longEffect f m else s1
      let s3 := (if m.deviceWide then s2.freeAll f m.saved else s2).mbxDone f m.code (s2.longResult m)
      let s4 := s3.hep.lateFlr.foldl (fun (x : State) g => x.flrSteps g) s3
      if m.deviceWide then { s4 with hep := { s4.hep with lateFlr := [] } } else s3

end Sys2Proof.Machine
end

