-- ==== Sys2Proof/Machine/Host.lean ====
section
/-!
DEFINITION. Requests the endpoint does not support, MSI-X unmasking, the management bus, submission fetches (R339, R340, R347, R351 to R353, Tables 14.5, 14.15).
-/
namespace Sys2Proof.Machine

/-! ### Held messages -/

/-- The vectors of a function that are pending and not masked, in ascending order. -/
def State.heldVectors (s : State) (f : Nat) : List Nat :=
  let base := msixPba f 0
  let words := s.regs.filter (fun e => decide (base ≤ e.1) && decide (e.1 < base + (if f = 0 then 256 else 16)))
  (words.flatMap (fun e => ((List.range 32).filter (fun i => e.2.getLsbD i)).map (fun i => 8 * (e.1 - base) + i))).filter (fun v => !(s.bitAt (msixCtl f v) 0))

/-- One pending vector fires, once however many events it held (R339). -/
def State.fireHeld (s : State) (f v : Nat) : State := (s.setFld (msixPba f v) (v % 32) 1 0).emit (.msix f v)

/-- Every vector that a function may send again fires (log entry 9). -/
def State.fireAllHeld (s : State) (f : Nat) : State :=
  if s.canIssue f then (s.heldVectors f).foldl (fun (x : State) v => x.fireHeld f v) s else s

/-- The number of vectors of a function (Table 14.1). -/
def msixCount (f : Nat) : Nat := if f = 0 then 2048 else 128

/-- MSIX_UNMASK (R339): the mask bit of a vector's table entry is cleared. -/
def State.msixUnmask (s : State) (f v : Nat) : State :=
  if s.fnLive f = false ∨ msixCount f ≤ v then s
  else
    let s1 := s.setFld (msixCtl f v) 0 1 0
    if s1.bitAt (msixPba f v) (v % 32) && s1.canIssue f then s1.fireHeld f v else s1

/-! ### Unsupported Requests (R340) -/

/-- Is a request of a kind of Table 14.5 answered with a completion: `posted` says whether the request itself expects none (kind 6)? -/
def urCompletes (kind : Nat) (posted : Bool) : Bool := kind != 1 && kind != 5 && !(kind == 6 && posted)

/-- UNSUPPORTED_REQUEST: a request of `kind` at function `f`, BAR code `bar`, address `addr`. -/
def State.unsupportedRequest (s : State) (f kind bar addr : Nat) (posted : Bool) : State :=
  let s1 := s.bump Reg.mgmtUrCnt 1
  let s2 := if s.bitAt Reg.mgmtErr 0 then s1 else (s1.wr Reg.mgmtUrLog (f % 16 + (kind % 16) <<< 4 + (bar % 4) <<< 8)).wr64 Reg.mgmtUrAddr addr
  let s3 := s2.raise { idx := 0, unit := f % 16, bit := 0, detail := kind, addr := addr }
  let s4 := { s3 with hep := { s3.hep with aerUr := s3.hep.aerUr ||| BitVec.ofNat 16 (2 ^ (f % 16)) } }
  if urCompletes kind posted then s4.emit (.urCompletion (f % 16)) else s4

/-- ECRC_CHECK_FAILURE (R353): the TLP is dropped; AER status and MGMT_ERR.ecrc are set. -/
def State.ecrcFailure (s : State) (f : Nat) : State :=
  let s1 := { s with hep := { s.hep with aerEcrc := s.hep.aerEcrc ||| BitVec.ofNat 16 (2 ^ (f % 16)) } }
  s1.raise { idx := 0, unit := f % 16, bit := 8 }

/-! ### Submission queues (R347) -/

/-- SUBMISSION_FETCH_ERROR: the queue's enable is cleared. -/
def State.fetchError (s : State) (q : Nat) : State :=
  if noQueue ≤ q ∨ s.qType q ≠ 0 ∨ s.qEnabled q = false then s
  else (s.qDisable q).raise { idx := 0, unit := s.qOwner q, bit := 2, part := some (s.qOwner q) }

/-- The queue from which a stream takes ROI lists (PFE_STRM_CFG). -/
def State.feRoiQueue (s : State) (st : Nat) : Nat := s.fld (Reg.pfeStrmCfg st) 0 14

/-- ROI_LIST_FETCH (R122, R347): an entry taken from the stream's submission queue. -/
def State.roiFetch (s : State) (st : Nat) (e : Desc64) : State :=
  let q := s.feRoiQueue st
  if 95 < st ∨ s.bitAt (Reg.pfeStrmCfg st) 14 = false ∨ q = noQueue ∨ s.qType q ≠ 0 ∨ s.qEnabled q = false ∨ s.qHeld q = 0 ∨ s.qOwner q ≠ s.stPart st
    ∨ s.canIssue (s.stPart st) = false then s
  else (s.takeSubmission q).roiEntry st e

/-! ### The management bus target (R351, R352) -/

/-- Does the target answer: VDD_AON up, POR_N released, 20 ms after power-on? -/
def State.smbusUp (s : State) : Bool := s.pins.aonUp && !s.pins.porLow && decide (20000000 ≤ s.now)

/-- A read's answer. -/
def State.smbusRead (s : State) (bytes value : Nat) : State := s.emit (if s.smbusUp then .smbus bytes value else .smbusNack)

/-- Code 0x00: state, FAULT_N, safe hold, THERMTRIP_N. -/
def State.smbusStatus (s : State) : Nat :=
  s.devState + (b2n s.pins.faultN) <<< 4 + (s.fld Reg.safStatus 4 1) <<< 5 + (b2n s.pins.thermtripN) <<< 6

/-- Code 0x20: identifiers and versions. -/
def State.smbusId (s : State) : Nat :=
  s.rd Reg.mgmtId0 + (s.rd Reg.mgmtId1) <<< 32 + (s.rd Reg.mgmtFwVer) <<< 64 + (s.rd Reg.mgmtImageVer) <<< 96

/-- Code 0x21: cause, TB and count of faults. -/
def State.smbusFault (s : State) : Nat :=
  s.rd Reg.safFaultCause + (s.rd64 Reg.safFaultTb) <<< 32 + (s.rd Reg.safFaultCnt) <<< 96

/-- SMBUS_RESET_ARM: code 0xF0 with 0xA5 arms a reset request; another value disarms it. -/
def State.smbusArm (s : State) (v : Nat) : State :=
  if !s.smbusUp then s.emit .smbusNack
  else { s with hep := { s.hep with smbusArm := if v % 256 = 0xA5 then some s.now else none } }

/-- May a reset request act? -/
def State.smbusResetOk (s : State) : Bool := !(s.bitAt Reg.mgmtI2cCtrl 0) && !s.pwt.shutdown

/-- SMBUS_RESET_REQUEST: code 0xF1 with 0x5A within 100 ms of arming acts as PERST_N; not acknowledged while reset_dis or thermal shutdown forbids it. Another value, or an old arm, disarms. -/
def State.smbusReset (s : State) (v : Nat) : State :=
  if !s.smbusUp then s.emit .smbusNack
  else
    let s1 := { s with hep := { s.hep with smbusArm := none } }
    if !s.smbusResetOk then s.emit .smbusNack
    else match s.hep.smbusArm with
      | some t => if v % 256 = 0x5A ∧ s.now ≤ t + 100000000 then (s1.raise { idx := 0, unit := 0, bit := 4 }).perst else s1
      | none => s1

end Sys2Proof.Machine
end

