-- ==== Sys2Proof/Machine/Views.lean ====
section
/-!
DEFINITION. What each function sees at each offset of its BARs (R333 to R337, R350, R382, Tables 14.2 to 14.4, 14.8, 14.10): where a register word lies, and what a read returns.
-/
namespace Sys2Proof.Machine

/-- What lies at a 4-byte word of a BAR. -/
inductive Place where
  /-- Unimplemented space. -/
  | absent
  /-- A word that reads 0 and ignores writes. -/
  | rsv
  /-- A word that only shows a value. -/
  | shown (v : Nat)
  /-- A register of the PF's map; `ro` where the window makes it read-only. -/
  | reg (a : Nat) (ro : Bool)
  /-- A word of the function's mailbox, by its offset. -/
  | mbx (o : Nat)
  /-- A word of the function's MSI-X table; of its pending bit array. -/
  | msix (a : Nat)
  | pba (a : Nat)
  /-- The doorbell of a queue. -/
  | door (q : Nat)
  /-- A VF's POOL_BUF_QUERY and the data words behind it. -/
  | query
  | queryData (a : Nat)
  /-- The VF's own bit of MEM_DMA_RESUME. -/
  | resume
  deriving DecidableEq, Repr

/-- A register of the PF's map, or nothing. -/
def regPlace (a : Nat) (ro : Bool) : Place := if (regRow a).isSome then .reg a ro else .absent

/-- A mailbox's words (Table 14.8). -/
def mbxPlace (o : Nat) : Place := if o < 0xC ∨ (0x40 ≤ o ∧ o < 0xC0) then .mbx o else .absent

/-- The PF's BAR0 (Table 14.3). -/
def pfPlace (o : Nat) : Place :=
  if 0x1000 ≤ o ∧ o < 0x2000 then mbxPlace (o - 0x1000)
  else if 0x10000 ≤ o ∧ o < 0x18000 then .msix o
  else if 0x18000 ≤ o ∧ o < 0x18100 then .pba o
  else regPlace o false

/-- MGMT_VF registers (Table 14.10). -/
def State.vfMgmt (s : State) (p o : Nat) : Place :=
  match o / 4 with
  | 0 => .shown (s.rd (Reg.mgmtVfId p))
  | 1 => .shown (s.devState + (b2n (s.processing p)) <<< 4 + (b2n (s.classS p)) <<< 5 + (s.fld Reg.mgmtStatus 4 1) <<< 6)
  | 2 => .shown (s.rd (Reg.halRangeSync p))
  | 3 => .shown (s.rd (Reg.halRangeQueue p))
  | 4 => .shown (s.rd (Reg.halRangeWatch p))
  | _ => .absent

/-- The status copies at 0x400. -/
def State.vfStatus (s : State) (p o : Nat) : Place :=
  match o / 4 with
  | 0 => .reg Reg.tbNow true
  | 1 => .reg (Reg.tbNow + 4) true
  | 2 => .reg Reg.pwtStatus true
  | 3 => .reg Reg.pwtReefState true
  | 4 => .reg Reg.pwtTempMax true
  | 5 => .reg Reg.safStatus true
  | 6 => .reg (Reg.safPart p) true
  | 7 => .reg (Reg.safPartWithdrawn p) true
  | 8 => .shown (b2n (s.bitAt Reg.memDmaHalt p))
  | 9 => .resume
  | _ => .absent

/-- A core window: TC_CAP, a reserved word, TC_STATUS, TC_ARRAY_STATE. -/
def State.vfCore (s : State) (p o : Nat) : Place :=
  let c := o / 0x100
  if s.holdsSlots c p = false then .absent
  else match o % 0x100 / 4 with
    | 0 => .reg (Reg.tcCap c) true
    | 1 => .rsv
    | 2 => .reg (Reg.tcStatus c) true
    | 3 => .reg (Reg.tcArrayState c) true
    | _ => .absent

/-- A session window of a session that the partition owns. -/
def State.vfSession (s : State) (p o : Nat) : Place :=
  if s.fld (Reg.encSessDesc (o / 0x80)) 16 4 = p then regPlace (Reg.encSessDesc 0 + o) false else .absent

/-- A stream page: ingress, decoder, collector, tracker, front end. -/
def State.vfStream (s : State) (p o : Nat) : Place :=
  let st := o / 0x400
  let r := o % 0x400
  if s.stValid st = false ∨ s.stPart st ≠ p then .absent
  else if r < 0x40 then regPlace (ingStrmBase st + r) false
  else if r < 0x80 then (if st < 64 then regPlace (Reg.decStrmCfg st + (r - 0x40)) (decide (r = 0x44)) else .absent)
  else if r < 0xC0 then regPlace (Reg.colStrmCfg st + (r - 0x80)) (decide (r = 0x80))
  else if r < 0x100 then .absent
  else if r < 0x180 then regPlace (Reg.trkStrmDesc st + (r - 0x100)) (decide (r < 0x140))
  else if r < 0x200 then .absent
  else if r < 0x304 then .rsv
  else if r < 0x400 then regPlace (Reg.pfeView st 0 + (r - 0x200)) false
  else .absent

/-- The pool windows: the query, the host operation and its result. -/
def vfPool (p o : Nat) : Place :=
  if o = 0 then .query
  else if 8 ≤ o ∧ o < 0x18 then .queryData (vfBase p + 0x4000 + o)
  else if o = 0x20 ∨ o = 0x24 then .reg (Reg.poolHostOp p + (o - 0x20)) false
  else if o = 0x28 then .reg (Reg.poolHostResult p) true
  else .absent

/-- A VF's BAR0 (Table 14.4). -/
def State.vfPlace (s : State) (p o : Nat) : Place :=
  let firstOf := fun (a : Nat) => s.fld a 0 16
  if o < 0x14 then s.vfMgmt p o
  else if 0x100 ≤ o ∧ o < 0x200 then mbxPlace (o - 0x100)
  else if 0x400 ≤ o ∧ o < 0x428 then s.vfStatus p (o - 0x400)
  else if s.sec.started = false ∧ 0x1000 ≤ o ∧ ¬ (0xC000 ≤ o ∧ o < 0xD010) then .rsv
  else if 0x1000 ≤ o ∧ o < 0x1800 then s.vfCore p (o - 0x1000)
  else if 0x2000 ≤ o ∧ o < 0x2800 then s.vfSession p (o - 0x2000)
  else if 0x3000 ≤ o ∧ o < 0x3040 then regPlace (Reg.colPartDrops p + (o - 0x3000)) true
  else if 0x4000 ≤ o ∧ o < 0x4040 then vfPool p (o - 0x4000)
  else if 0x6000 ≤ o ∧ o < 0x8000 then
    let k := (o - 0x6000) / 0x20
    if s.pValid k && (decide (s.pOwner k = p) || s.pGrants k p) then regPlace (Reg.poolStat 0 + (o - 0x6000)) true else .absent
  else if 0xC000 ≤ o ∧ o < 0xC800 then .msix (vfBase p + o)
  else if 0xD000 ≤ o ∧ o < 0xD010 then .pba (vfBase p + o)
  else if 0x10000 ≤ o ∧ o < 0x28000 then s.vfStream p (o - 0x10000)
  else if 0x30000 ≤ o ∧ o < 0x40000 then
    let w := s.fld (Reg.halRangeWatch p) 0 12 + (o - 0x30000) / 0x40
    if s.inWatchRange p w then .reg (Reg.halWatch w + o % 0x40) false else .absent
  else if 0x40000 ≤ o ∧ o < 0x60000 then
    let q := s.fld (Reg.halRangeQueue p) 0 14 + (o - 0x40000) / 0x40
    if s.inQueueRange p q then .reg (Reg.halQueueDesc q + o % 0x40) false else .absent
  else if 0x60000 ≤ o ∧ o < 0x80000 then
    let q := s.fld (Reg.halRangeQueue p) 0 14 + (o - 0x60000) / 0x40
    if s.inQueueRange p q && decide (o % 0x40 = 0) then .door q else .absent
  else if 0x80000 ≤ o ∧ o < 0x100000 then
    let n := firstOf (Reg.halRangeSync p) + (o - 0x80000) / 0x10
    if s.inSyncRange p n then .reg (Reg.halSyncValue n + o % 0x10) false else .absent
  else .absent

/-- What lies at a word of a function's BAR: 0 BAR0, 2 the PF's BAR2 of doorbells (Table 14.2). -/
def State.place (s : State) (f bar o : Nat) : Place :=
  if bar = 0 then (if f = 0 then (if o < 0x4000000 then pfPlace o else .absent) else (if o < 0x100000 then s.vfPlace f o else .absent))
  else if bar = 2 ∧ f = 0 ∧ o < 0x1000000 ∧ o % 0x400 = 0 then .door (o / 0x400)
  else .absent

/-! ### Reads -/

/-- What a register of the PF's map reads as: a write-only one 0 (R9), TB_NOW the time base (R44, R47), the units' blocks 0 before the first READY (R382). -/
def State.readReg (s : State) (a : Nat) : Nat :=
  if s.unitsAsleep a then 0
  else match regRow a with
    | some r => if r.acc == .wo then 0 else if a = Reg.tbNow then bits s.now 0 32 else if a = Reg.tbNow + 4 then bits s.now 32 32 else s.rd a
    | none => 0

/-- The present index behind a doorbell: P of a submission queue, C of a result queue (R256); the PF reads 0 for a queue that P0 does not own (R337). -/
def State.doorRead (s : State) (f q : Nat) : Nat :=
  if s.qOwner q ≠ f then 0 else if s.qType q = 0 then s.qP q else s.qC q

/-- A read of a word: its value, or none in unimplemented space, which is an Unsupported Request (R340). No read has a side effect (R350): reads are functions of the state, and no command reads. -/
def State.readWord (s : State) (f bar o : Nat) : Option Nat :=
  match s.place f bar o with
  | .absent => none
  | .rsv => some 0
  | .shown v => some v
  | .reg a _ => some (s.readReg a)
  | .mbx x => some (if x = 0 then 0 else s.rd (mbxBase f + x))
  | .msix a => some (s.rd a)
  | .pba a => some (s.rd a)
  | .door q => some (s.doorRead f q)
  | .query => some (s.rd (vfBase f + 0x4000))
  | .queryData a => some (s.rd a)
  | .resume => some 0

end Sys2Proof.Machine
end

