-- ==== Sys2Proof/Machine/RegWrite.lean ====
section
/-!
DEFINITION. REGISTER_WRITE: a write TLP cut into words, each brought to the behaviour of the register it meets (R9, R10, R338, R339, R345, R353, R382).
-/
namespace Sys2Proof.Machine

/-! ### Interrupt enables -/

/-- The error register whose interrupt enable lies at `a`: index and copy. -/
def intEnAt (a : Nat) : Option (Nat × Nat) :=
  ((List.range 19).flatMap (fun (i : Nat) => (errUnits i).map (fun (u : Nat) => (i, u)))).find? (fun e => decide (errIntEn e.1 e.2 = some a))

/-- An interrupt enable register written: each bit that goes from 0 to 1 while its sticky bit reads 1 fires vector 1 once (R339). -/
def State.writeIntEn (s : State) (a v : Nat) : State :=
  match intEnAt a with
  | none => s.wr a v
  | some (i, u) =>
    let n := popCount 32 ((v &&& (0xFFFFFFFF - s.rd a)) &&& s.rd (errReg i u))
    loopUp n (fun _ (x : State) => x.msix 0 1) (s.wr a v)

/-! ### Words of registers with behaviour -/

/-- A word of a pool descriptor (R258, R259): the PF writes the protected priority, the thresholds and the vector. -/
def State.poolWrite (s : State) (k word v : Nat) : State :=
  if word = 0 then s.setFld (Reg.poolDesc k) 8 4 (v >>> 8)
  else if word = 6 then s.poolThresholds k v
  else if 7 ≤ word ∧ word ≤ 9 then s.poolStage k word v
  else s

/-- A word of a pool's host operation: the handle, then the operation (Table 11.11). -/
def State.hostOpWrite (s : State) (p : Nat) (hi : Bool) (v : Nat) : State :=
  if !hi then s.wr (Reg.poolHostOp p) v
  else
    let h := s.rd (Reg.poolHostOp p)
    match v % 4 with
    | 1 => s.dropOp p (hostHolder p) h
    | 2 => s.freeOp p (hostHolder p) h
    | _ => s

/-- ENC_SESS_CMD (Table 4.13). -/
def State.sessCmd (s : State) (n v : Nat) : State :=
  match v % 4 with
  | 1 => s.encStart n
  | 2 => s.encStop n
  | 3 => s.encTrigger n
  | _ => s

/-- MEM_SCRUB_CMD: start, or abort before any further word. -/
def State.scrubCmd (s : State) (v : Nat) : State := if bit v 0 then s.scrubStart else if bit v 1 then s.scrubAbort 0 else s

/-- A word of a write-only register. A 64-bit one acts when its high word is written. -/
def State.writeWo (s : State) (f a v : Nat) : State :=
  if a = Reg.tbAdjOffset then s.writeAdjOffset v
  else if a = Reg.tbSet then s.wr a v
  else if a = Reg.tbSet + 4 then s.writeTbSet (s.rd Reg.tbSet + v <<< 32)
  else if a = Reg.memDmaResume then s.dmaResume f v
  else if a = Reg.memScrubCmd then s.scrubCmd v
  else if a = Reg.secFuseCmd then s.fuseRequest (bits v 0 8) (bits v 8 2) (bits v 16 16)
  else if a = Reg.secJtagRelock then s.jtagRelock v
  else if Reg.encSessCmd 0 ≤ a ∧ a < Reg.encSessCmd 16 then s.sessCmd ((a - Reg.encSessCmd 0) / 0x80) v
  else if Reg.poolHostOp 0 ≤ a ∧ a < Reg.poolHostOp 16 then s.hostOpWrite ((a - Reg.poolHostOp 0) / 0x10) (decide (a % 8 = 4)) v
  else if Reg.halSyncValue 0 ≤ a ∧ a < Reg.halSyncValue 65536 then
    let n := (a - Reg.halSyncValue 0) / 0x10
    if a % 0x10 = 8 then s.hostSignal (some f) n v else s.hostReset f n
  else s

/-- A word of a read-write register that a block's chapter gives a behaviour; none for a plain one. -/
def State.writeSpecial (s : State) (f a v : Nat) : Option State :=
  let word := fun (base stride : Nat) => (a - base) % stride / 4
  let copy := fun (base stride : Nat) => (a - base) / stride
  if a = Reg.tbCtrl then some (s.writeTbCtrl v)
  else if a = Reg.tbAdjRate then some (s.writeAdjRate v)
  else if a = Reg.pwtPowerCap then some (s.writeCap v)
  else if Reg.ingCsiCtrl 0 ≤ a ∧ a < Reg.ingCsiCtrl 8 ∧ a % 0x1000 = 0 then some (s.csiCtrlWrite (copy 0x500000 0x1000) v)
  else if a = Reg.safCtrl then some (s.faultNTest v)
  else if Reg.ingEthClass 0 ≤ a ∧ a < Reg.ingEthClass 128 then some (s.ethClassWrite (copy 0x610000 0x40) (word 0x610000 0x40) v)
  else if Reg.decStrmCfg 0 ≤ a ∧ a < Reg.decStrmCfg 64 then some (s.wr a (max 1 (v % 256)))
  else if Reg.encSessDesc 0 ≤ a ∧ a < Reg.encSessDesc 16 then some (s.encDescWrite f (copy 0x801000 0x80) (word 0x801000 0x80) v)
  else if 0x901800 ≤ a ∧ a < 0x905000 then some (s.wr a (v &&& 0x03FF03FF))
  else if Reg.pfeView 0 0 ≤ a ∧ a < Reg.pfeView 96 0 ∧ (a - 0x910000) % 0x200 < 0x100 then
    some (s.viewWrite (copy 0x910000 0x200) ((a - 0x910000) % 0x200 / 0x40) (word 0x910000 0x40) v)
  else if Reg.trkStrmDesc 0 ≤ a ∧ a < Reg.trkStrmDesc 96 then some (s.trkDescWrite (copy 0xB08000 0x80) (word 0xB08000 0x80) v)
  else if Reg.colStrmCfg 0 ≤ a ∧ a < Reg.colStrmCfg 96 ∧ a % 0x40 = 4 then some (s.queryFrame (copy 0xC08000 0x40) v)
  else if Reg.halQueueDesc 0 ≤ a ∧ a < Reg.halQueueDesc 16384 then some (s.queueWrite f (copy 0x1100000 0x40) (word 0x1100000 0x40) v)
  else if Reg.halWatch 0 ≤ a ∧ a < Reg.halWatch 4096 then
    let w := copy 0x1200000 0x40
    some (if a % 0x40 = 0 ∧ bit v 18 = true then s.watchArm f w v else s.watchWrite f w (word 0x1200000 0x40) v)
  else if Reg.poolDesc 0 ≤ a ∧ a < Reg.poolDesc 256 then some (s.poolWrite (copy 0xE10000 0x40) (word 0xE10000 0x40) v)
  else if a = Reg.poolBufQuery then some (s.bufQuery 0 v)
  else if Reg.secCalShadow 0 ≤ a ∧ a < Reg.secCalShadow 512 then some (s.setShadow (copy 0x2090000 4) v)
  else none

/-- A word of a read-write register: the bits that exist take the written value, clamped where the table says so (R9, R10). -/
def State.writeRw (s : State) (f a v mask : Nat) : State :=
  match s.writeSpecial f a v with
  | some t => t
  | none => if (intEnAt a).isSome then s.writeIntEn a (v &&& mask) else s.wr a (regClamp a (v &&& mask))

/-- The index and copy of the sticky error register at `a`. -/
def errAt (a : Nat) : Option (Nat × Nat) :=
  ((List.range 19).flatMap (fun (i : Nat) => (errUnits i).map (fun (u : Nat) => (i, u)))).find? (fun e => decide (errReg e.1 e.2 = a))

/-- A word of the PF's register map written by function `f`. -/
def State.writeReg (s : State) (f a v : Nat) : State :=
  if s.unitsAsleep a then s
  else match regRow a with
    | none => s
    | some r => match r.acc with
      | .ro => s
      | .rws => if a = Reg.errFirstStatus then s.errFirstWrite v [] else match errAt a with
          | some e => s.stickyClear e.1 e.2 v []
          | none => s
      | .wo => s.writeWo f a v
      | .rw => s.writeRw f a v r.mask

/-! ### Mailboxes -/

/-- MGMT_MBX_CMD written (R345): the commands that need nothing from outside run; the others come as rows of their own (log entry 32). A BUSY mailbox ignores the write; an opcode that Table 14.11 does not list ends with BAD_OPCODE. -/
def State.mbxCmd (s : State) (f v : Nat) : State :=
  let op := bits v 0 8
  let tag := bits v 8 8
  match op with
  | 0x00 => s.nopCmd f tag
  | 0x01 => s.infoCmd f tag
  | 0x11 => s.unloadModel f tag
  | 0x20 => s.bindCmd f tag
  | 0x21 => s.unbindCmd f tag
  | 0x22 => s.startCmd f tag
  | 0x23 => s.stopCmd f tag
  | 0x40 => s.attestCmd f tag
  | 0x41 => s.challengeCmd f tag
  | 0x42 => s.responseCmd f tag
  | _ => if s.mbxState f = 1 ∨ mbxKnown op = false then (s.mbxStart f op tag).1 else s

/-- A word of a mailbox: the command, the arguments; the rest is read-only. -/
def State.mbxWrite (s : State) (f o v : Nat) : State :=
  if o = 0 then s.mbxCmd f v
  else if 0x40 ≤ o ∧ o < 0x80 then (if s.mbxState f = 1 then s.mbxIgnore f else s.wr (mbxBase f + o) v)
  else s

/-- A word of an MSI-X table: message address and data, then the mask bit (R339). -/
def State.msixWrite (s : State) (f a v : Nat) : State :=
  if a % 16 = 12 then
    if bit v 0 then s.setFld a 0 1 1 else s.msixUnmask f ((a - msixCtl f 0) / 16)
  else s.wr a v

/-- One word written by function `f` at an offset of a BAR. -/
def State.writeWord (s : State) (f bar o v : Nat) : State :=
  match s.place f bar o with
  | .absent => s
  | .rsv => s
  | .shown _ => s
  | .reg a ro => if ro then s else s.writeReg f a v
  | .mbx x => s.mbxWrite f x v
  | .msix a => s.msixWrite f a v
  | .pba _ => s
  | .door q => if s.sec.started then s.doorbell f q v else s
  | .query => s.bufQuery f v
  | .queryData _ => s
  | .resume => s.dmaResume f v

/-! ### Write TLPs (R338) -/

/-- Is a write taken: 4 aligned bytes, or aligned 8-byte writes within one 64-byte block? -/
def tlpOk (o n : Nat) : Bool :=
  (decide (n = 4) && decide (o % 4 = 0)) || (decide (n % 8 = 0) && decide (8 ≤ n) && decide (o % 8 = 0) && decide (o % 64 + n ≤ 64))

/-- The words of a write in ascending order. -/
def State.writeWords (s : State) (f bar o : Nat) : Nat → Nat → State
  | 0, _ => s
  | n + 1, v => State.writeWords (s.writeWord f bar o (v % 2 ^ 32)) f bar (o + 4) n (v >>> 32)

/-- Does a write meet unimplemented space only? -/
def State.allAbsent (s : State) (f bar o n : Nat) : Bool := (List.range n).all (fun (i : Nat) => decide (s.place f bar (o + 4 * i) = .absent))

/-- The BAR code of MGMT_UR_LOG. -/
def barCode (f bar : Nat) : Nat := if f ≠ 0 then 2 else if bar = 0 then 0 else 1

/-- REGISTER_WRITE: `n` bytes of `data` written by function `f` at offset `o` of a BAR. -/
def State.registerWrite (s : State) (f bar o n data : Nat) : State :=
  if !(s.fnLive f) then s
  else if !(tlpOk o n) then s.raise { idx := 0, unit := f, bit := 1 }
  else if s.allAbsent f bar o (n / 4) then s.unsupportedRequest f 1 (barCode f bar) o true
  else s.writeWords f bar o (n / 4) data

end Sys2Proof.Machine
end

