-- ==== Sys2Proof/Machine/Live.lean ====
section
/-!
DEFINITION. What the commands share: which units are out of reset when a command comes (R32, R371, R382, R441), the end of a command, and the commands that join several units' parts.
-/
namespace Sys2Proof.Machine

/-! ### Which units answer -/

/-- Are the units outside the always-on domain out of reset (R371), and do the handshakes of the self-timed islands run (R42)? -/
def State.live (s : State) : Bool := s.pins.aonUp && !s.pins.porLow && !s.pins.perstLow && !s.pwt.shutdown

/-- The effect of a unit of the always-on domain: VDD_AON is up (R32). -/
def State.whenOn (s : State) (act : State → State) : State := if s.pins.aonUp then act s else s

/-- The effect of a unit that resets hold: nothing while it is held (R371, R441; log entry 34), or while thermal shutdown stops its handshakes (R42). -/
def State.whenLive (s : State) (act : State → State) : State := if s.live then act s else s

/-- A register write by a function that answers (R332, R371). -/
def State.whenFn (s : State) (f : Nat) (act : State → State) : State := if s.fnLive f then act s else s

/-- A register write to a block of subsystems 2 to 13: discarded before the first READY (R382). -/
def State.whenUp (s : State) (f : Nat) (act : State → State) : State := if s.fnLive f && s.sec.started then act s else s

/-- The release of POR_N: it was low (R371; log entry 35). -/
def State.whenPor (s : State) (act : State → State) : State := if s.pins.porLow then act s else s

/-- What every command answers: its effect with the copies of ERR_SUMMARY and the status registers, and the queue as it was. -/
def State.ends (s s' : State) : Host.Outcome State Fault Refusal := .next (s'.finish s.pending)

/-- One REFCLK cycle on an empty queue (R43; log entry 1), with the same copies; requests to memory that waited for their buckets are admitted (R297). -/
def State.idle (s : State) : State := (s.tick.whenLive (fun x => x.admitWaiting x.dram.waiting.length)).finish s.pending

/-! ### Commands over several units -/

/-- A CSI-2 frame that a Frame Start or a Frame End of `before` has closed, made known to its front end (R119). -/
def State.afterClose (s before : State) (k vc : Nat) : State :=
  match before.csiStream k vc with
  | none => s
  | some st => if before.bitAt (Reg.ingCsiCtrl k) 0 && (before.inS st).csi.isSome then s.feClose st else s

/-- A line of the open CSI-2 frame of `before`: the encoder view of its stream goes on (R126). -/
def State.afterLine (s before : State) (k vc : Nat) : State :=
  match before.csiStream k vc with
  | none => s
  | some st => if before.bitAt (Reg.ingCsiCtrl k) 0 && (before.inS st).csi.isSome then s.encProgress st else s

/-- Has a stopping stream a frame on its way: admitted and not through its front end, its decoder and ingress (R51)? -/
def State.framesLeft (s : State) (st : Nat) : Bool :=
  !(s.feS st).frames.isEmpty || s.dec.notices.any (fun n => decide (n.stream = st))
    || (s.inS st).csi.elim false (fun f => f.admitted)
    || (s.inS st).au.elim false (fun a => !a.dropped) || (s.inS st).pushWait.isSome || (s.inS st).pushHeld.isSome || !(s.inS st).reads.isEmpty
    || (decide (st < 64) && ((s.decS st).pic.isSome || (s.decS st).wait.isSome || decide (0 < s.unbegun st)))

/-- STREAM_RETURN_IDLE (R51): after the last frame, a decoder flushes as for end_of_stream, and the stream is idle. -/
def State.returnIdle (s : State) (st : Nat) : State :=
  if s.stRun st ≠ 2 ∨ s.framesLeft st = true then s
  else (if st < 64 then s.decFlush st else s).streamIdle st

/-- FRAME_RELEASE (R231, R244): not while the trackers' records of the frame wait for their comparison. -/
def State.releaseTurn (s : State) (st : Nat) (agree : Bool) : State :=
  match (s.frames st).find? (fun f => decide (s.marksNeeded st ≤ f.marks) && !f.released && !f.withdrawn) with
  | none => s
  | some f => if (s.trkS st).cmp = some f.counter then s else s.frameRelease st agree

/-- SIGNAL (R250) of a device unit, or of a function whose register write it is. -/
def State.signalBy (s : State) (who : Option (Fin 16)) (n amt : Nat) : State :=
  match who with
  | none => s.whenLive (fun x => x.hostSignal none n amt)
  | some f => s.whenUp f (fun x => x.hostSignal (some f.val) n amt)

/-- An operation on a buffer by a unit, or by host software of the function that a host holder names (R262, Table 11.11). -/
def State.poolBy (s : State) (holder : Nat) (act : State → State) : State :=
  if isHost holder then s.whenUp holder act else s.whenLive act

/-- SHARE (R262), with its code in POOL_HOST_RESULT for host software. -/
def State.shareBy (s : State) (tag holder h newHolder last : Nat) : State :=
  s.poolBy holder (fun x =>
    let r := x.share (if isHost holder then holder else tag) holder h newHolder last
    r.1.hostResult holder r.2)

/-- A new event as the ERR block sees it. -/
def eventOf (e : EventFacts) (idx : Fin 19) : ErrEvent :=
  { idx := idx, unit := e.unit.toNat, bit := e.bit, part := e.part.map (fun p => p.val), aux := e.aux.toNat, detail := e.detail.toNat, addr := e.addr.toNat }

end Sys2Proof.Machine
end

