-- ==== Sys2Proof/Machine/CmdCollect.lean ====
section
/-!
DEFINITION. The meanings of the commands of the collector (10), one definition per command.
-/
namespace Sys2Proof.Machine

/-- RECORD_STAGE (R241). -/
def execRecordStage (port : Fin 18) (s : State) : Host.Outcome State Fault Refusal :=
  s.ends (s.whenLive (fun x => x.stageRecord port))

/-- COLLECTOR_TURN (R242). -/
def execCollectorTurn (s : State) : Host.Outcome State Fault Refusal :=
  s.ends (s.whenLive (fun x => x.collectorTurn))

/-- FRAME_RELEASE (R244). -/
def execFrameRelease (st : Fin 96) (agree : Bool) (s : State) : Host.Outcome State Fault Refusal :=
  s.ends (s.whenLive (fun x => x.releaseTurn st agree))

/-- FRAME_CLOSE_TIMEOUT (R244). -/
def execFrameCloseTimeout (st : Fin 96) (s : State) : Host.Outcome State Fault Refusal :=
  s.ends (s.whenLive (fun x => x.closeTimeout st))

/-- RING_STALL_TIMEOUT (R245). -/
def execRingStallTimeout (q : Fin 16384) (s : State) : Host.Outcome State Fault Refusal :=
  s.ends (s.whenLive (fun x => x.stallTimeout q))

/-- COL_STRM_QUERY_WRITE (R244). -/
def execColStrmQueryWrite (st : Fin 96) (v : Word) (s : State) : Host.Outcome State Fault Refusal :=
  s.ends (s.whenUp 0 (fun x => x.queryFrame st v.toNat))

end Sys2Proof.Machine
end

