-- ==== Sys2Proof/Machine/CmdDecode.lean ====
section
/-!
DEFINITION. The meanings of the commands of decoding (04), one definition per command.
-/
namespace Sys2Proof.Machine

/-- PICTURE_START (R81). -/
def execPictureStart (st : Fin 64) (info : PicInfo) (s : State) : Host.Outcome State Fault Refusal :=
  s.ends (s.whenLive (fun x => x.pictureStart st info))

/-- BLOCK_ROW_RECONSTRUCTED (R85, R86). -/
def execBlockRowReconstructed (d : Fin 4) (ns : BitVec 32) (rows : List RowData) (s : State) : Host.Outcome State Fault Refusal :=
  s.ends (s.whenLive (fun x => x.blockRow d ns.toNat rows))

/-- ROW_LIMIT_EXPIRY (R88). -/
def execRowLimitExpiry (d : Fin 4) (s : State) : Host.Outcome State Fault Refusal :=
  s.ends (s.whenLive (fun x => x.rowLimit d))

/-- PICTURE_BUDGET_EXPIRY (R92). -/
def execPictureBudgetExpiry (st : Fin 64) (s : State) : Host.Outcome State Fault Refusal :=
  s.ends (s.whenLive (fun x => x.budgetExpiry st))

/-- DUAL_ROW_CRC_COMPARE (R96). -/
def execDualRowCrcCompare (st : Fin 64) (s : State) : Host.Outcome State Fault Refusal :=
  s.ends (s.whenLive (fun x => x.dualCompare st))

/-- CHECKER_LAG (R97). -/
def execCheckerLag (st : Fin 64) (s : State) : Host.Outcome State Fault Refusal :=
  s.ends (s.whenLive (fun x => x.checkerLag st))

end Sys2Proof.Machine
end

