-- ==== Sys2Proof/Machine/CmdEncode.lean ====
section
/-!
DEFINITION. The meanings of the commands of snippet encoding (04), one definition per command.
-/
namespace Sys2Proof.Machine

/-- ENC_SESS_DESC_WRITE (R106). -/
def execEncSessDescWrite (f n word : Fin 16) (v : Word) (s : State) : Host.Outcome State Fault Refusal :=
  s.ends (s.whenUp f (fun x => x.encDescWrite f n word v.toNat))

/-- START (R102). -/
def execStart (f n : Fin 16) (s : State) : Host.Outcome State Fault Refusal :=
  s.ends (s.whenUp f (fun x => x.encStart n))

/-- STOP (R102). -/
def execStop (f n : Fin 16) (s : State) : Host.Outcome State Fault Refusal :=
  s.ends (s.whenUp f (fun x => x.encStop n))

/-- TRIGGER (R104). -/
def execTrigger (f n : Fin 16) (s : State) : Host.Outcome State Fault Refusal :=
  s.ends (s.whenUp f (fun x => x.encTrigger n))

/-- SNIPPET_TRIGGER_EVENT (R104). -/
def execSnippetTriggerEvent (st : Fin 96) (typ : BitVec 8) (s : State) : Host.Outcome State Fault Refusal :=
  s.ends (s.whenLive (fun x => x.encEventTrigger st typ.toNat))

/-- ENC_SOURCE_PICTURE (R101). -/
def execEncSourcePicture (n : Fin 16) (s : State) : Host.Outcome State Fault Refusal :=
  s.ends (s.whenLive (fun x => x.encSourcePicture n))

/-- ENC_ROW_START (R102). -/
def execEncRowStart (n : Fin 16) (s : State) : Host.Outcome State Fault Refusal :=
  s.ends (s.whenLive (fun x => x.encRowStart n))

/-- ENC_SLICE_CODED (R100, R104). -/
def execEncSliceCoded (n : Fin 16) (data : Blob) (s : State) : Host.Outcome State Fault Refusal :=
  s.ends (s.whenLive (fun x => x.encSliceCoded n data))

/-- POST_WINDOW_EXPIRY (R104). -/
def execPostWindowExpiry (n : Fin 16) (s : State) : Host.Outcome State Fault Refusal :=
  s.ends (s.whenLive (fun x => x.postWindow n))

/-- SOURCE_LOST (R106). -/
def execSourceLost (n : Fin 16) (s : State) : Host.Outcome State Fault Refusal :=
  s.ends (s.whenLive (fun x => x.sourceLost n))

end Sys2Proof.Machine
end

