-- ==== Sys2Proof/Machine/CmdError.lean ====
section
/-!
DEFINITION. The meanings of the commands of the ERR block (19), one definition per command.
-/
namespace Sys2Proof.Machine

/-- ERROR_EVENT (R436). -/
def execErrorEvent (picks : List Nat) (s : State) : Host.Outcome State Fault Refusal :=
  s.ends (s.whenOn (fun x => x.errorEvent picks))

/-- STICKY_BIT_CLEAR (R440). -/
def execStickyBitClear (idx : Fin 19) (unit : Fin 16) (mask : Word) (again : List EventFacts) (s : State) : Host.Outcome State Fault Refusal :=
  s.ends (s.whenFn 0 (fun x => x.stickyClear idx unit mask.toNat (again.map (fun e => eventOf e idx))))

/-- ERR_FIRST_STATUS_WRITE (R439). -/
def execErrFirstStatusWrite (v : Word) (picks : List Nat) (s : State) : Host.Outcome State Fault Refusal :=
  s.ends (s.whenFn 0 (fun x => x.errFirstWrite v.toNat picks))

end Sys2Proof.Machine
end

