-- ==== Sys2Proof/Machine/CmdHalyard.lean ====
section
/-!
DEFINITION. The meanings of the commands of sync objects, watches, queues (11), one definition per command.
-/
namespace Sys2Proof.Machine

/-- SIGNAL (R250). -/
def execSignal (who : Option (Fin 16)) (n : BitVec 16) (amt : BitVec 32) (s : State) : Host.Outcome State Fault Refusal :=
  s.ends (s.signalBy who n.toNat amt.toNat)

/-- RESET (R250). -/
def execReset (f : Fin 16) (n : BitVec 16) (s : State) : Host.Outcome State Fault Refusal :=
  s.ends (s.whenUp f (fun x => x.hostReset f n.toNat))

/-- WATCH_ARM (R252). -/
def execWatchArm (f : Fin 16) (w : Fin 4096) (v : Word) (s : State) : Host.Outcome State Fault Refusal :=
  s.ends (s.whenUp f (fun x => x.watchArm f w v.toNat))

/-- WATCH_COPY_DONE (R253). -/
def execWatchCopyDone (w : Fin 4096) (ok : Bool) (data : Blob) (s : State) : Host.Outcome State Fault Refusal :=
  s.ends (s.whenLive (fun x => x.watchCopyDone w ok data.val))

/-- QUEUE_DESCRIPTOR_WRITE (R254). -/
def execQueueDescriptorWrite (f : Fin 16) (q : Fin 16384) (word : Fin 16) (v : Word) (s : State) : Host.Outcome State Fault Refusal :=
  s.ends (s.whenUp f (fun x => x.queueWrite f q word v.toNat))

/-- DOORBELL_WRITE (R256). -/
def execDoorbellWrite (f : Fin 16) (q : Fin 16384) (v : Word) (s : State) : Host.Outcome State Fault Refusal :=
  s.ends (s.whenUp f (fun x => x.doorbell f q v.toNat))

end Sys2Proof.Machine
end

