-- ==== Sys2Proof/Machine/CmdHost.lean ====
section
/-!
DEFINITION. The meanings of the commands of the host interface (14), one definition per command.
-/
namespace Sys2Proof.Machine

/-- UNSUPPORTED_REQUEST (R340). -/
def execUnsupportedRequest (f : Fin 16) (kind : Fin 9) (bar : Fin 4) (addr : BitVec 64) (posted : Bool) (s : State) : Host.Outcome State Fault Refusal :=
  s.ends (s.whenFn 0 (fun x => x.unsupportedRequest f kind bar addr.toNat posted))

/-- REGISTER_WRITE (R338). -/
def execRegisterWrite (f : Fin 16) (bar : Fin 2) (o : BitVec 28) (data : Blob) (s : State) : Host.Outcome State Fault Refusal :=
  s.ends (s.registerWrite f (2 * bar.val) o.toNat data.len data.val)

/-- MSIX_UNMASK (R339). -/
def execMsixUnmask (f : Fin 16) (v : Fin 2048) (s : State) : Host.Outcome State Fault Refusal :=
  s.ends (s.msixUnmask f v)

/-- BUS_MASTER_ENABLE_CLEAR (R332). -/
def execBusMasterEnableClear (f : Fin 16) (d3 : Bool) (s : State) : Host.Outcome State Fault Refusal :=
  s.ends (s.whenFn f (fun x => x.bmeClear f d3))

end Sys2Proof.Machine
end

