-- ==== Sys2Proof/Machine/CmdIngress.lean ====
section
/-!
DEFINITION. The meanings of the commands of stream ingress (03), one definition per command.
-/
namespace Sys2Proof.Machine

/-- STREAM_START (R51). -/
def execStreamStart (f : Fin 16) (tag : BitVec 8) (s : State) : Host.Outcome State Fault Refusal :=
  s.ends (s.startCmd f tag.toNat)

/-- STREAM_STOP (R51). -/
def execStreamStop (f : Fin 16) (tag : BitVec 8) (s : State) : Host.Outcome State Fault Refusal :=
  s.ends (s.stopCmd f tag.toNat)

/-- STREAM_RETURN_IDLE (R51). -/
def execStreamReturnIdle (st : Fin 96) (s : State) : Host.Outcome State Fault Refusal :=
  s.ends (s.whenLive (fun x => x.returnIdle st))

/-- CSI2_FRAME_START (R57, R314). -/
def execCsi2FrameStart (port : Fin 8) (vc : Fin 16) (fn : BitVec 16) (fixed dup : Bool) (s : State) : Host.Outcome State Fault Refusal :=
  s.ends (s.whenLive (fun x => (x.csiFrameStart port vc fn.toNat fixed dup).afterClose x port vc))

/-- CSI2_LINE_PACKET (R54). -/
def execCsi2LinePacket (port : Fin 8) (vc : Fin 16) (dt : BitVec 6) (wc : BitVec 16) (crcOk fixed : Bool) (data : Blob) (dup : Bool) (s : State) : Host.Outcome State Fault Refusal :=
  s.ends (s.whenLive (fun x => (x.csiLinePacket port vc dt.toNat wc.toNat crcOk fixed data.val dup).afterLine x port vc))

/-- CSI2_EMBEDDED_PACKET (R58). -/
def execCsi2EmbeddedPacket (port : Fin 8) (vc : Fin 16) (crcOk fixed : Bool) (data : Blob) (s : State) : Host.Outcome State Fault Refusal :=
  s.ends (s.whenLive (fun x => x.csiEmbedded port vc crcOk fixed data))

/-- CSI2_FRAME_END (R59). -/
def execCsi2FrameEnd (port : Fin 8) (vc : Fin 16) (fixed : Bool) (s : State) : Host.Outcome State Fault Refusal :=
  s.ends (s.whenLive (fun x => (x.csiFrameEnd port vc fixed).afterClose x port vc))

/-- CSI2_HEADER_UNCORRECTABLE (R53). -/
def execCsi2HeaderUncorrectable (port : Fin 8) (s : State) : Host.Outcome State Fault Refusal :=
  s.ends (s.whenLive (fun x => x.csiHeaderBad port))

/-- CSI2_LANE_SYNC_ERROR (R53). -/
def execCsi2LaneSyncError (port : Fin 8) (s : State) : Host.Outcome State Fault Refusal :=
  s.ends (s.whenLive (fun x => x.csiSyncErr port))

/-- ETH_LINK_CHANGE (R60). -/
def execEthLinkChange (port : Fin 2) (up : Bool) (rate : Fin 4) (s : State) : Host.Outcome State Fault Refusal :=
  s.ends (s.whenLive (fun x => x.ethLink port up rate))

/-- ETH_FRAME_RECEIVE (R62). -/
def execEthFrameReceive (port : Fin 2) (fr : EthFrame) (s : State) : Host.Outcome State Fault Refusal :=
  s.ends (s.whenLive (fun x => x.ethFrame port fr))

/-- PACKET_DECLARED_LOST (R66). -/
def execPacketDeclaredLost (st : Fin 96) (s : State) : Host.Outcome State Fault Refusal :=
  s.ends (s.whenLive (fun x => x.packetLost st))

/-- BP_DECISION_AT_VCL_HEADER (R73). -/
def execBpDecisionAtVclHeader (st : Fin 96) (irap isRef : Bool) (s : State) : Host.Outcome State Fault Refusal :=
  s.ends (s.whenLive (fun x => x.bpDecision st irap isRef))

/-- ING_ETH_CLASS_WRITE (R64). -/
def execIngEthClassWrite (n : Fin 128) (word : Fin 16) (v : Word) (s : State) : Host.Outcome State Fault Refusal :=
  s.ends (s.whenUp 0 (fun x => x.ethClassWrite n word v.toNat))

/-- PUSH_AU (R70). -/
def execPushAu (st : Fin 96) (e : Desc64) (s : State) : Host.Outcome State Fault Refusal :=
  s.ends (s.whenLive (fun x => x.pushAu st e))

/-- PUSH_AU_READ_DONE (R70). -/
def execPushAuReadDone (st : Fin 96) (ok : Bool) (data : Blob) (s : State) : Host.Outcome State Fault Refusal :=
  s.ends (s.whenLive (fun x => x.pushReadDone st ok data.val))

end Sys2Proof.Machine
end

