-- ==== Sys2Proof/Machine/CmdLanes.lean ====
section
/-!
DEFINITION. The meanings of the commands of the lanes of the CSI-2 ports (03), one definition per command.
-/
namespace Sys2Proof.Machine

/-- ULPS_ENTRY_EXIT (R52). -/
def execUlpsEntryExit (port : Fin 8) (ulps hs deskew : Bool) (s : State) : Host.Outcome State Fault Refusal :=
  s.ends (s.whenLive (fun x => x.csiUlps port ulps hs deskew))

end Sys2Proof.Machine
end

