-- ==== Sys2Proof/Machine/CmdMailbox.lean ====
section
/-!
DEFINITION. The meanings of the commands of the mailbox commands (14), one definition per command.
-/
namespace Sys2Proof.Machine

/-- NOP (R345). -/
def execNop (f : Fin 16) (tag : BitVec 8) (s : State) : Host.Outcome State Fault Refusal :=
  s.ends (s.nopCmd f tag.toNat)

/-- GET_INFO (R345). -/
def execGetInfo (f : Fin 16) (tag : BitVec 8) (s : State) : Host.Outcome State Fault Refusal :=
  s.ends (s.infoCmd f tag.toNat)

/-- LOAD_MODEL (R369). -/
def execLoadModel (f : Fin 16) (tag : BitVec 8) (ok : Bool) (b : Blob) (s : State) : Host.Outcome State Fault Refusal :=
  s.ends (s.loadModel f tag.toNat ok b)

/-- UNLOAD_MODEL (R345). -/
def execUnloadModel (f : Fin 16) (tag : BitVec 8) (s : State) : Host.Outcome State Fault Refusal :=
  s.ends (s.unloadModel f tag.toNat)

/-- BIND (R225). -/
def execBind (f : Fin 16) (tag : BitVec 8) (s : State) : Host.Outcome State Fault Refusal :=
  s.ends (s.bindCmd f tag.toNat)

/-- UNBIND (R225). -/
def execUnbind (f : Fin 16) (tag : BitVec 8) (s : State) : Host.Outcome State Fault Refusal :=
  s.ends (s.unbindCmd f tag.toNat)

/-- RESTRUCTURE (R365). -/
def execRestructure (f : Fin 16) (tag : BitVec 8) (ok : Bool) (b : Blob) (s : State) : Host.Outcome State Fault Refusal :=
  s.ends (s.restructure f tag.toNat ok b)

/-- CAL_COMMIT (R386). -/
def execCalCommit (f : Fin 16) (tag : BitVec 8) (ok : Bool) (s : State) : Host.Outcome State Fault Refusal :=
  s.ends (s.calCommit f tag.toNat ok)

/-- SELF_TEST_FULL (R345). -/
def execSelfTestFull (f : Fin 16) (tag : BitVec 8) (fails : BitVec 41) (s : State) : Host.Outcome State Fault Refusal :=
  s.ends (s.selfTestFull f tag.toNat fails.toNat)

/-- SUPPLY_IMAGE (R376, R379). -/
def execSupplyImage (f : Fin 16) (tag : BitVec 8) (t : StartFacts) (ok : Bool) (b b2 : Blob) (s : State) : Host.Outcome State Fault Refusal :=
  s.ends (s.supplyCmd f tag.toNat t ok b b2)

/-- ATTEST (R405). -/
def execAttest (f : Fin 16) (tag : BitVec 8) (s : State) : Host.Outcome State Fault Refusal :=
  s.ends (s.attestCmd f tag.toNat)

/-- JTAG_CHALLENGE (R407). -/
def execJtagChallenge (f : Fin 16) (tag : BitVec 8) (s : State) : Host.Outcome State Fault Refusal :=
  s.ends (s.challengeCmd f tag.toNat)

/-- JTAG_RESPONSE (R408). -/
def execJtagResponse (f : Fin 16) (tag : BitVec 8) (s : State) : Host.Outcome State Fault Refusal :=
  s.ends (s.responseCmd f tag.toNat)

/-- LONG_COMMAND_END (R345). -/
def execLongCommandEnd (f : Fin 16) (s : State) : Host.Outcome State Fault Refusal :=
  s.ends (s.whenLive (fun x => x.longEnd f))

end Sys2Proof.Machine
end

