-- ==== Sys2Proof/Machine/CmdMemory.lean ====
section
/-!
DEFINITION. The meanings of the commands of memory and DRAM (12), one definition per command.
-/
namespace Sys2Proof.Machine

/-- MEMORY_ACCESS (R277). -/
def execMemoryAccess (flips : List (Nat × BitVec 72)) (q : MemReq) (s : State) : Host.Outcome State Fault Refusal :=
  s.ends (s.whenLive (fun x => x.memoryAccess flips q))

/-- DMA_STARVE (R272). -/
def execDmaStarve (holder index : BitVec 8) (s : State) : Host.Outcome State Fault Refusal :=
  s.ends (s.whenLive (fun x => x.dmaStarve holder.toNat index.toNat))

/-- MEM_DMA_RESUME_WRITE (R281). -/
def execMemDmaResumeWrite (f : Fin 16) (v : Word) (s : State) : Host.Outcome State Fault Refusal :=
  s.ends (s.whenUp f (fun x => x.dmaResume f v.toNat))

/-- ALERT_N (R285). -/
def execAlertN (ch : Fin 4) (again : Bool) (qs : List MemReq) (s : State) : Host.Outcome State Fault Refusal :=
  s.ends (s.whenLive (fun x => x.alertN ch again qs))

/-- DDR_REFRESH (R286). -/
def execDdrRefresh (ch : Fin 4) (s : State) : Host.Outcome State Fault Refusal :=
  s.ends (s.whenLive (fun x => x.ddrRefresh ch))

/-- SELF_REFRESH_ENTRY (R287). -/
def execSelfRefreshEntry (ch : Fin 4) (rank : Fin 2) (s : State) : Host.Outcome State Fault Refusal :=
  s.ends (s.whenLive (fun x => x.selfRefresh ch rank))

/-- ZQ_CALIBRATION (R287). -/
def execZqCalibration (ch : Fin 4) (rank : Fin 2) (s : State) : Host.Outcome State Fault Refusal :=
  s.ends (s.whenLive (fun x => x.zqCalibration ch rank))

/-- SCRUB_START (R290). -/
def execScrubStart (s : State) : Host.Outcome State Fault Refusal :=
  s.ends (s.whenUp 0 (fun x => x.scrubStart))

/-- SCRUB_ABORT (R292). -/
def execScrubAbort (done : BitVec 48) (s : State) : Host.Outcome State Fault Refusal :=
  s.ends (s.whenUp 0 (fun x => x.scrubAbort done.toNat))

/-- SCRUB_PASS_DONE (R290). -/
def execScrubPassDone (s : State) : Host.Outcome State Fault Refusal :=
  s.ends (s.whenLive (fun x => x.scrubDone))

end Sys2Proof.Machine
end

