-- ==== Sys2Proof/Machine/CmdPixel.lean ====
section
/-!
DEFINITION. The meanings of the commands of the pixel front ends (05), one definition per command.
-/
namespace Sys2Proof.Machine

/-- VIEW_DESCRIPTOR_WRITE (R107). -/
def execViewDescriptorWrite (st : Fin 96) (view : Fin 4) (word : Fin 16) (v : Word) (s : State) : Host.Outcome State Fault Refusal :=
  s.ends (s.whenUp 0 (fun x => x.viewWrite st view word v.toNat))

/-- FRONT_END_FRAME_START (R123). -/
def execFrontEndFrameStart (st : Fin 96) (s : State) : Host.Outcome State Fault Refusal :=
  s.ends (s.whenLive (fun x => x.frameStart st))

/-- BAND_START (R115). -/
def execBandStart (fe : Fin 4) (s : State) : Host.Outcome State Fault Refusal :=
  s.ends (s.whenLive (fun x => x.bandStart fe))

/-- BAND_DONE (R117). -/
def execBandDone (fe : Fin 4) (s : State) : Host.Outcome State Fault Refusal :=
  s.ends (s.whenLive (fun x => x.bandDone fe))

/-- BAND_LIMIT_EXPIRY (R120). -/
def execBandLimitExpiry (fe : Fin 4) (s : State) : Host.Outcome State Fault Refusal :=
  s.ends (s.whenLive (fun x => x.bandLimit fe))

/-- BAND_CHECK_COMPARE (R121). -/
def execBandCheckCompare (fe : Fin 4) (agree : Bool) (s : State) : Host.Outcome State Fault Refusal :=
  s.ends (s.whenLive (fun x => x.bandCompare fe agree))

end Sys2Proof.Machine
end

