-- ==== Sys2Proof/Machine/CmdPlan.lean ====
section
/-!
DEFINITION. The meanings of the commands of the planner (09), one definition per command.
-/
namespace Sys2Proof.Machine

/-- STEP_START (R226). -/
def execStepStart (p : Fin 16) (s : State) : Host.Outcome State Fault Refusal :=
  s.ends (s.whenLive (fun x => x.stepStart p))

/-- JOB_PLAN (R206). -/
def execJobPlan (p : Fin 16) (num : Nat) (ext : List Nat) (fits : Bool) (cut : JobCut) (sigs : List (Nat × Nat)) (s : State) : Host.Outcome State Fault Refusal :=
  s.ends (s.whenLive (fun x => x.jobPlan p num ext fits cut.tiles cut.groups sigs))

end Sys2Proof.Machine
end

