-- ==== Sys2Proof/Machine/CmdPool.lean ====
section
/-!
DEFINITION. The meanings of the commands of buffer pools (11), one definition per command.
-/
namespace Sys2Proof.Machine

/-- RESERVATION (R261). -/
def execReservation (tag : Fin 16) (holder : BitVec 8) (pairs : List (Fin 256 × BitVec 16)) (s : State) : Host.Outcome State Fault Refusal :=
  s.ends (s.whenLive (fun x => x.reserve tag holder.toNat (pairs.map (fun p => (p.1.val, p.2.toNat)))))

/-- RESERVATION_GRANT (R261). -/
def execReservationGrant (s : State) : Host.Outcome State Fault Refusal :=
  s.ends (s.whenLive (fun x => x.reservationGrant))

/-- RESERVATION_AGED (R261). -/
def execReservationAged (s : State) : Host.Outcome State Fault Refusal :=
  s.ends (s.whenLive (fun x => x.reservationAged))

/-- SHARE (R262). -/
def execShare (tag : Fin 16) (holder : BitVec 8) (h : Word) (newHolder last : BitVec 8) (s : State) : Host.Outcome State Fault Refusal :=
  s.ends (s.shareBy tag holder.toNat h.toNat newHolder.toNat last.toNat)

/-- DROP (R262). -/
def execDrop (tag : Fin 16) (holder : BitVec 8) (h : Word) (s : State) : Host.Outcome State Fault Refusal :=
  s.ends (s.poolBy holder.toNat (fun y => y.dropOp tag holder.toNat h.toNat))

/-- FREE (R262). -/
def execFree (tag : Fin 16) (holder : BitVec 8) (h : Word) (s : State) : Host.Outcome State Fault Refusal :=
  s.ends (s.poolBy holder.toNat (fun y => y.freeOp tag holder.toNat h.toNat))

/-- POOL_THRESHOLD_WRITE (R259). -/
def execPoolThresholdWrite (k : Fin 256) (v : Word) (s : State) : Host.Outcome State Fault Refusal :=
  s.ends (s.whenUp 0 (fun x => x.poolThresholds k v.toNat))

/-- POOL_BUF_QUERY_WRITE (R260). -/
def execPoolBufQueryWrite (f : Fin 16) (h : Word) (s : State) : Host.Outcome State Fault Refusal :=
  s.ends (s.whenUp f (fun x => x.bufQuery f h.toNat))

end Sys2Proof.Machine
end

