-- ==== Sys2Proof/Machine/CmdPower.lean ====
section
/-!
DEFINITION. The meanings of the commands of power, clocks of the rails, temperature (02), one definition per command.
-/
namespace Sys2Proof.Machine

/-- TELLTALE_READ (R26). -/
def execTelltaleRead (rs : List (BitVec 16 × BitVec 16)) (s : State) : Host.Outcome State Fault Refusal :=
  s.ends (s.whenOn (fun x => x.telltaleRead (rs.map (fun r => (r.1.toNat, r.2.toNat)))))

/-- FUSEE_LOOP_TICK (R27). -/
def execFuseeLoopTick (beats : BitVec 16) (s : State) : Host.Outcome State Fault Refusal :=
  s.ends (s.whenOn (fun x => x.fuseeTick beats.toNat))

/-- AVS_FRAME_FAILURE (R31). -/
def execAvsFrameFailure (rail : Fin 2) (s : State) : Host.Outcome State Fault Refusal :=
  s.ends (s.whenOn (fun x => x.avsFailure rail))

/-- AVS_RETRY (R31). -/
def execAvsRetry (rail : Fin 2) (ok : Bool) (s : State) : Host.Outcome State Fault Refusal :=
  s.ends (s.whenOn (fun x => x.avsRetry rail ok))

/-- AVS_STATUS_FAULT (R31). -/
def execAvsStatusFault (rail : Fin 2) (s : State) : Host.Outcome State Fault Refusal :=
  s.ends (s.whenOn (fun x => x.avsStatusFault rail))

/-- RAIL_DEVIATION (R31). -/
def execRailDeviation (rail : Fin 2) (mv : BitVec 16) (s : State) : Host.Outcome State Fault Refusal :=
  s.ends (s.whenOn (fun x => x.railDeviation rail mv.toNat))

/-- RAIL_LOW (R31). -/
def execRailLow (rail : Fin 2) (mv : BitVec 16) (s : State) : Host.Outcome State Fault Refusal :=
  s.ends (s.whenOn (fun x => x.railLow rail mv.toNat))

/-- AVS_FROZEN_STATUS_RETRY (R37). -/
def execAvsFrozenStatusRetry (rail : Fin 2) (ok : Bool) (s : State) : Host.Outcome State Fault Refusal :=
  s.ends (s.whenOn (fun x => x.avsStatusRetry rail ok))

/-- POWER_DOMAIN_REQUEST (R34). -/
def execPowerDomainRequest (domain : Fin 253) (state : Fin 3) (s : State) : Host.Outcome State Fault Refusal :=
  s.ends (s.whenLive (fun x => x.pdRequest domain state))

/-- POWER_DOMAIN_TRANSITION_DONE (R33). -/
def execPowerDomainTransitionDone (domain : Fin 253) (s : State) : Host.Outcome State Fault Refusal :=
  s.ends (s.whenOn (fun x => x.pdDone domain))

/-- REEFING_EVALUATION (R36, R39). -/
def execReefingEvaluation (mvA maA mvL maL : BitVec 32) (s : State) : Host.Outcome State Fault Refusal :=
  s.ends (s.whenOn (fun x => x.reefEvaluate mvA.toNat maA.toNat mvL.toNat maL.toNat))

/-- PWT_POWER_CAP_WRITE (R38). -/
def execPwtPowerCapWrite (v : Word) (s : State) : Host.Outcome State Fault Refusal :=
  s.ends (s.whenFn 0 (fun x => x.writeCap v.toNat))

/-- TEMPERATURE_SENSOR_READ (R41). -/
def execTemperatureSensorRead (ts : List (BitVec 16)) (s : State) : Host.Outcome State Fault Refusal :=
  s.ends (s.whenOn (fun x => x.tempRead (ts.map (fun t => t.toNat))))

/-- SENSOR_FAIL (R41). -/
def execSensorFail (k : Fin 12) (s : State) : Host.Outcome State Fault Refusal :=
  s.ends (s.whenOn (fun x => x.sensorFail k))

/-- THERMAL_SHUTDOWN (R42). -/
def execThermalShutdown (s : State) : Host.Outcome State Fault Refusal :=
  s.ends (s.whenOn (fun x => x.thermalShutdown))

end Sys2Proof.Machine
end

