-- ==== Sys2Proof/Machine/CmdQueues.lean ====
section
/-!
DEFINITION. The meanings of the commands of submission queues (14), one definition per command.
-/
namespace Sys2Proof.Machine

/-- JOB (R348). -/
def execJob (p : Fin 16) (e : Desc64) (s : State) : Host.Outcome State Fault Refusal :=
  s.ends (s.whenLive (fun x => x.fetchJob p e))

/-- ROI_LIST_FETCH (R122). -/
def execRoiListFetch (st : Fin 96) (e : Desc64) (s : State) : Host.Outcome State Fault Refusal :=
  s.ends (s.whenLive (fun x => x.roiFetch st e))

/-- SUBMISSION_FETCH_ERROR (R347). -/
def execSubmissionFetchError (q : Fin 16384) (s : State) : Host.Outcome State Fault Refusal :=
  s.ends (s.whenLive (fun x => x.fetchError q))

/-- ECRC_CHECK_FAILURE (R353). -/
def execEcrcCheckFailure (f : Fin 16) (s : State) : Host.Outcome State Fault Refusal :=
  s.ends (s.whenFn f (fun x => x.ecrcFailure f))

end Sys2Proof.Machine
end

