-- ==== Sys2Proof/Machine/CmdSafety.lean ====
section
/-!
DEFINITION. The meanings of the commands of partitions and the safety island (13), one definition per command.
-/
namespace Sys2Proof.Machine

/-- DETECTED_FAULT (R318). -/
def execDetectedFault (s : State) : Host.Outcome State Fault Refusal :=
  s.ends (s.whenOn (fun x => x.detectedFault))

/-- CONTROL_PAIR_MISMATCH (R310). -/
def execControlPairMismatch (pair : Fin 4) (s : State) : Host.Outcome State Fault Refusal :=
  s.ends (s.whenLive (fun x => x.controlMismatch pair))

/-- HEARTBEAT_MISSING (R310). -/
def execHeartbeatMissing (pair : Fin 3) (s : State) : Host.Outcome State Fault Refusal :=
  s.ends (s.whenLive (fun x => x.heartbeatMissing pair))

/-- WAIT_AUDIT (R311). -/
def execWaitAudit (s : State) : Host.Outcome State Fault Refusal :=
  s.ends (s.whenLive (fun x => x.waitAudit))

/-- SELF_TEST_CHUNK (R325). -/
def execSelfTestChunk (r : Fin 41) (ok : Bool) (s : State) : Host.Outcome State Fault Refusal :=
  s.ends (s.whenLive (fun x => x.selfTestChunk r ok))

/-- TEST_OVERDUE (R326). -/
def execTestOverdue (r : Fin 41) (s : State) : Host.Outcome State Fault Refusal :=
  s.ends (s.whenLive (fun x => x.testOverdue r))

/-- FAULT_N_TEST_WRITE (R318). -/
def execFaultNTestWrite (v : Word) (s : State) : Host.Outcome State Fault Refusal :=
  s.ends (s.whenFn 0 (fun x => x.faultNTest v.toNat))

/-- PARTITION_PROCESSING_START (R332, R341). -/
def execPartitionProcessingStart (p : Fin 16) (vfs : Option (Fin 16)) (ctl : Option FnControl) (s : State) : Host.Outcome State Fault Refusal :=
  s.ends (s.whenFn p (fun x => (x.processingStart p (vfs.map (fun n => n.val)) ctl).fireAllHeld p))

/-- PARTITION_PROCESSING_STOP (R332). -/
def execPartitionProcessingStop (p : Fin 16) (vfs : Option (Fin 16)) (s : State) : Host.Outcome State Fault Refusal :=
  s.ends (s.whenLive (fun x => x.processingStop p (vfs.map (fun n => n.val))))

end Sys2Proof.Machine
end

