-- ==== Sys2Proof/Machine/CmdSecurity.lean ====
section
/-!
DEFINITION. The meanings of the commands of calibration, fuses and JTAG (16, 17), one definition per command.
-/
namespace Sys2Proof.Machine

/-- SEC_CAL_SHADOW_WRITE (R384). -/
def execSecCalShadowWrite (k : Fin 512) (v : Word) (s : State) : Host.Outcome State Fault Refusal :=
  s.ends (s.whenFn 0 (fun x => x.setShadow k v.toNat))

/-- REVOKE_SLOT (R400). -/
def execRevokeSlot (slot : Fin 4) (confirm : BitVec 16) (s : State) : Host.Outcome State Fault Refusal :=
  s.ends (s.whenFn 0 (fun x => x.fuseRequest 1 slot confirm.toNat))

/-- ADVANCE_ROLLBACK (R400). -/
def execAdvanceRollback (confirm : BitVec 16) (s : State) : Host.Outcome State Fault Refusal :=
  s.ends (s.whenFn 0 (fun x => x.fuseRequest 2 0 confirm.toNat))

/-- DISABLE_JTAG (R400). -/
def execDisableJtag (confirm : BitVec 16) (s : State) : Host.Outcome State Fault Refusal :=
  s.ends (s.whenFn 0 (fun x => x.fuseRequest 3 0 confirm.toNat))

/-- FUSE_BURN_COMPLETE (R400). -/
def execFuseBurnComplete (ok : Bool) (s : State) : Host.Outcome State Fault Refusal :=
  s.ends (s.whenOn (fun x => x.fuseDone ok))

/-- JTAG_CHALLENGE_EXPIRY (R407). -/
def execJtagChallengeExpiry (s : State) : Host.Outcome State Fault Refusal :=
  s.ends (s.whenOn (fun x => x.challengeExpiry))

/-- SEC_JTAG_RELOCK_WRITE (R408). -/
def execSecJtagRelockWrite (v : Word) (s : State) : Host.Outcome State Fault Refusal :=
  s.ends (s.whenFn 0 (fun x => x.jtagRelock v.toNat))

end Sys2Proof.Machine
end

