-- ==== Sys2Proof/Machine/CmdSmbus.lean ====
section
/-!
DEFINITION. The meanings of the commands of the management bus (14), one definition per command.
-/
namespace Sys2Proof.Machine

/-- SMBUS_READ_STATUS (R351). -/
def execSmbusReadStatus (s : State) : Host.Outcome State Fault Refusal :=
  s.ends (s.smbusRead 2 (s.smbusStatus))

/-- SMBUS_READ_FAULT_CAUSE (R351). -/
def execSmbusReadFaultCause (s : State) : Host.Outcome State Fault Refusal :=
  s.ends (s.smbusRead 2 (s.fld Reg.safFaultCause 0 16))

/-- SMBUS_READ_TEMP_MAX (R351). -/
def execSmbusReadTempMax (s : State) : Host.Outcome State Fault Refusal :=
  s.ends (s.smbusRead 2 (s.fld Reg.pwtTempMax 16 16))

/-- SMBUS_READ_TEMP_SENSOR (R351). -/
def execSmbusReadTempSensor (k : Fin 12) (s : State) : Host.Outcome State Fault Refusal :=
  s.ends (s.smbusRead 2 (s.fld (Reg.pwtTemp k) 0 16))

/-- SMBUS_READ_POWER_NOW (R351). -/
def execSmbusReadPowerNow (s : State) : Host.Outcome State Fault Refusal :=
  s.ends (s.smbusRead 2 (s.fld Reg.pwtPowerNow 0 16))

/-- SMBUS_READ_POWER_CAP (R351). -/
def execSmbusReadPowerCap (s : State) : Host.Outcome State Fault Refusal :=
  s.ends (s.smbusRead 2 (s.fld Reg.pwtPowerCap 0 16))

/-- SMBUS_READ_VDD_ARRAY (R351). -/
def execSmbusReadVddArray (s : State) : Host.Outcome State Fault Refusal :=
  s.ends (s.smbusRead 2 (s.fld Reg.pwtVddArray 0 16))

/-- SMBUS_READ_VDD_LOGIC (R351). -/
def execSmbusReadVddLogic (s : State) : Host.Outcome State Fault Refusal :=
  s.ends (s.smbusRead 2 (s.fld Reg.pwtVddLogic 0 16))

/-- SMBUS_READ_REEF_STATE (R351). -/
def execSmbusReadReefState (s : State) : Host.Outcome State Fault Refusal :=
  s.ends (s.smbusRead 2 (s.fld Reg.pwtReefState 0 16))

/-- SMBUS_READ_TB (R351). -/
def execSmbusReadTb (s : State) : Host.Outcome State Fault Refusal :=
  s.ends (s.smbusRead 8 (s.now))

/-- SMBUS_READ_ID (R351). -/
def execSmbusReadId (s : State) : Host.Outcome State Fault Refusal :=
  s.ends (s.smbusRead 16 (s.smbusId))

/-- SMBUS_READ_FAULT_RECORD (R351). -/
def execSmbusReadFaultRecord (s : State) : Host.Outcome State Fault Refusal :=
  s.ends (s.smbusRead 16 (s.smbusFault))

/-- SMBUS_RESET_ARM (R352). -/
def execSmbusResetArm (v : BitVec 8) (s : State) : Host.Outcome State Fault Refusal :=
  s.ends (s.smbusArm v.toNat)

/-- SMBUS_RESET_REQUEST (R352). -/
def execSmbusResetRequest (v : BitVec 8) (s : State) : Host.Outcome State Fault Refusal :=
  s.ends (s.smbusReset v.toNat)

end Sys2Proof.Machine
end

