-- ==== Sys2Proof/Machine/CmdStart.lean ====
section
/-!
DEFINITION. The meanings of the commands of power, reset, start and restart (14, 16), one definition per command.
-/
namespace Sys2Proof.Machine

/-- POWER_ON (R371). -/
def execPowerOn (src addr : BitVec 2) (s : State) : Host.Outcome State Fault Refusal :=
  s.ends (s.whenPor (fun x => x.burnAtPowerLoss.powerOn src addr))

/-- PERST_N_ASSERT (R342). -/
def execPerstNAssert (s : State) : Host.Outcome State Fault Refusal :=
  s.ends (s.whenLive (fun x => x.perst))

/-- COLD_START (R378). -/
def execColdStart (t : StartFacts) (s : State) : Host.Outcome State Fault Refusal :=
  s.ends (s.whenOn (fun x => x.coldStart t))

/-- HOT_RESET (R342). -/
def execHotReset (linkDown : Bool) (s : State) : Host.Outcome State Fault Refusal :=
  s.ends (s.whenLive (fun x => x.hotReset linkDown))

/-- PF_FLR (R322). -/
def execPfFlr (s : State) : Host.Outcome State Fault Refusal :=
  s.ends (s.whenLive (fun x => x.pfFlr))

/-- VF_FLR (R343). -/
def execVfFlr (f : Fin 16) (s : State) : Host.Outcome State Fault Refusal :=
  s.ends (s.whenLive (fun x => x.vfFlr f))

/-- RESTART (R388). -/
def execRestart (t : StartFacts) (fault : Option (BitVec 8)) (s : State) : Host.Outcome State Fault Refusal :=
  s.ends (s.whenLive (fun x => x.restart t (fault.map (fun c => c.toNat))))

/-- POWER_OFF (R393). -/
def execPowerOff (s : State) : Host.Outcome State Fault Refusal :=
  s.ends (s.whenOn (fun x => x.powerOff))

/-- POR_N_ASSERT (R372). -/
def execPorNAssert (s : State) : Host.Outcome State Fault Refusal :=
  s.ends (s.whenOn (fun x => if x.pins.porLow then x else x.porAssert))

end Sys2Proof.Machine
end

