-- ==== Sys2Proof/Machine/CmdTensor.lean ====
section
/-!
DEFINITION. The meanings of the commands of the tensor cores and the escapement (06, 07, 09), one definition per command.
-/
namespace Sys2Proof.Machine

/-- TILE_DESCRIPTOR_WRITE (R147). -/
def execTileDescriptorWrite (core : Fin 8) (pair : Fin 2) (d : Desc128) (facts : LayerFacts) (s : State) : Host.Outcome State Fault Refusal :=
  s.ends (s.whenLive (fun x => x.writeTile core pair d facts))

/-- ESCAPEMENT_SLOT_START (R221). -/
def execEscapementSlotStart (ready : List (BitVec 16)) (s : State) : Host.Outcome State Fault Refusal :=
  s.ends (s.whenLive (fun x => x.escapement (ready.map (fun r => r.toNat))))

/-- TILE_ISSUE (R211). -/
def execTileIssue (core : Fin 8) (s : State) : Host.Outcome State Fault Refusal :=
  s.ends (s.whenLive (fun x => x.tileIssue core))

/-- TILE_REJECT_RESPONSE (R213). -/
def execTileRejectResponse (s : State) : Host.Outcome State Fault Refusal :=
  s.ends (s.whenLive (fun x => x.rejectResponse))

/-- TILE_WAITS_MET (R210). -/
def execTileWaitsMet (core : Fin 8) (s : State) : Host.Outcome State Fault Refusal :=
  s.ends (s.whenLive (fun x => x.waitsMet core))

/-- WEIGHT_LOAD_DONE (R136). -/
def execWeightLoadDone (core : Fin 8) (b : Fin 2) (s : State) : Host.Outcome State Fault Refusal :=
  s.ends (s.whenLive (fun x => x.loadDone core b))

/-- TILE_BEATS_DONE (R148). -/
def execTileBeatsDone (core : Fin 8) (stall : BitVec 32) (s : State) : Host.Outcome State Fault Refusal :=
  s.ends (s.whenLive (fun x => x.beatsDone core stall.toNat))

/-- WAVEFRONT_MISMATCH (R132). -/
def execWavefrontMismatch (core : Fin 8) (arr : Fin 4) (row col : Fin 8) (s : State) : Host.Outcome State Fault Refusal :=
  s.ends (s.whenLive (fun x => x.wavefront core arr row col))

/-- SEQUENCER_PARITY_ERROR (R149). -/
def execSequencerParityError (core : Fin 8) (phase : Fin 5) (s : State) : Host.Outcome State Fault Refusal :=
  s.ends (s.whenLive (fun x => x.seqParity core phase))

/-- EPILOGUE_DONE (R143). -/
def execEpilogueDone (core : Fin 8) (outs : List OutRec) (s : State) : Host.Outcome State Fault Refusal :=
  s.ends (s.whenLive (fun x => x.epilogueDone core outs))

/-- TILE_CLOSE (R150). -/
def execTileClose (core : Fin 8) (s : State) : Host.Outcome State Fault Refusal :=
  s.ends (s.whenLive (fun x => x.tileClose core))

/-- HALO_WRITE (R151). -/
def execHaloWrite (core : Fin 8) (fwd : Bool) (s : State) : Host.Outcome State Fault Refusal :=
  s.ends (s.whenLive (fun x => x.haloWrite core fwd))

/-- TILE_WATCHDOG_EXPIRY (R220). -/
def execTileWatchdogExpiry (core : Fin 8) (s : State) : Host.Outcome State Fault Refusal :=
  s.ends (s.whenLive (fun x => x.watchdog core))

end Sys2Proof.Machine
end

