-- ==== Sys2Proof/Machine/CmdTime.lean ====
section
/-!
DEFINITION. The meanings of the commands of the time base (02), one definition per command.
-/
namespace Sys2Proof.Machine

/-- TB_COPY_DISAGREE (R43). -/
def execTbCopyDisagree (copy : Fin 3) (s : State) : Host.Outcome State Fault Refusal :=
  s.ends (s.whenOn (fun x => x.tbCopyDisagree copy))

/-- TB_NO_MAJORITY (R43). -/
def execTbNoMajority (s : State) : Host.Outcome State Fault Refusal :=
  s.ends (s.whenOn (fun x => x.tbNoMajority))

/-- REFCLK_LOSS (R43). -/
def execRefclkLoss (s : State) : Host.Outcome State Fault Refusal :=
  s.ends (s.whenOn (fun x => x.refclkLoss))

/-- TB_ADJ_RATE_WRITE (R45). -/
def execTbAdjRateWrite (v : Word) (s : State) : Host.Outcome State Fault Refusal :=
  s.ends (s.whenFn 0 (fun x => x.writeAdjRate v.toNat))

/-- TB_ADJ_OFFSET_WRITE (R45). -/
def execTbAdjOffsetWrite (v : Word) (s : State) : Host.Outcome State Fault Refusal :=
  s.ends (s.whenFn 0 (fun x => x.writeAdjOffset v.toNat))

/-- TB_SET_WRITE (R45). -/
def execTbSetWrite (v : BitVec 64) (s : State) : Host.Outcome State Fault Refusal :=
  s.ends (s.whenFn 0 (fun x => x.writeTbSet v.toNat))

/-- TB_SLEW_COMPLETE (R45). -/
def execTbSlewComplete (s : State) : Host.Outcome State Fault Refusal :=
  s.ends (s.whenOn (fun x => x.slewComplete))

/-- TIME_PPS_EDGE (R46). -/
def execTimePpsEdge (s : State) : Host.Outcome State Fault Refusal :=
  s.ends (s.whenOn (fun x => x.timePps))

end Sys2Proof.Machine
end

