-- ==== Sys2Proof/Machine/CmdTrack.lean ====
section
/-!
DEFINITION. The meanings of the commands of the trackers (10), one definition per command.
-/
namespace Sys2Proof.Machine

/-- TRACKER_FRAME (R232). -/
def execTrackerFrame (st : Fin 96) (s : State) : Host.Outcome State Fault Refusal :=
  s.ends (s.whenLive (fun x => x.trackerFrame st))

/-- TRACKER_COMPARE (R231). -/
def execTrackerCompare (st : Fin 96) (agree : Bool) (s : State) : Host.Outcome State Fault Refusal :=
  s.ends (s.whenLive (fun x => x.trackerCompare st agree))

/-- TRACKER_STAGE_LIMIT (R316). -/
def execTrackerStageLimit (st : Fin 96) (s : State) : Host.Outcome State Fault Refusal :=
  s.ends (s.whenLive (fun x => x.trackerLimit st))

/-- TRACKER_DESC_WRITE (R231). -/
def execTrackerDescWrite (st : Fin 96) (word : Fin 16) (v : Word) (s : State) : Host.Outcome State Fault Refusal :=
  s.ends (s.whenUp 0 (fun x => x.trkDescWrite st word v.toNat))

end Sys2Proof.Machine
end

