-- ==== Sys2Proof/Machine/Dispatch.lean ====
section
/-!
DEFINITION. The effect of a command on everything but the queue: one arm per command, each a direct call of its meaning.
-/
namespace Sys2Proof.Machine

/-- The effect of a command. -/
def exec (i : Instr) (s : State) : Host.Outcome State Fault Refusal :=
  match i with
  | .telltaleRead rs => Sys2Proof.Machine.execTelltaleRead rs s
  | .fuseeLoopTick beats => Sys2Proof.Machine.execFuseeLoopTick beats s
  | .avsFrameFailure rail => Sys2Proof.Machine.execAvsFrameFailure rail s
  | .avsRetry rail ok => Sys2Proof.Machine.execAvsRetry rail ok s
  | .avsStatusFault rail => Sys2Proof.Machine.execAvsStatusFault rail s
  | .railDeviation rail mv => Sys2Proof.Machine.execRailDeviation rail mv s
  | .railLow rail mv => Sys2Proof.Machine.execRailLow rail mv s
  | .avsFrozenStatusRetry rail ok => Sys2Proof.Machine.execAvsFrozenStatusRetry rail ok s
  | .powerDomainRequest domain state => Sys2Proof.Machine.execPowerDomainRequest domain state s
  | .powerDomainTransitionDone domain => Sys2Proof.Machine.execPowerDomainTransitionDone domain s
  | .reefingEvaluation mvA maA mvL maL => Sys2Proof.Machine.execReefingEvaluation mvA maA mvL maL s
  | .pwtPowerCapWrite v => Sys2Proof.Machine.execPwtPowerCapWrite v s
  | .temperatureSensorRead ts => Sys2Proof.Machine.execTemperatureSensorRead ts s
  | .sensorFail k => Sys2Proof.Machine.execSensorFail k s
  | .thermalShutdown => Sys2Proof.Machine.execThermalShutdown s
  | .tbCopyDisagree copy => Sys2Proof.Machine.execTbCopyDisagree copy s
  | .tbNoMajority => Sys2Proof.Machine.execTbNoMajority s
  | .refclkLoss => Sys2Proof.Machine.execRefclkLoss s
  | .tbAdjRateWrite v => Sys2Proof.Machine.execTbAdjRateWrite v s
  | .tbAdjOffsetWrite v => Sys2Proof.Machine.execTbAdjOffsetWrite v s
  | .tbSetWrite v => Sys2Proof.Machine.execTbSetWrite v s
  | .tbSlewComplete => Sys2Proof.Machine.execTbSlewComplete s
  | .timePpsEdge => Sys2Proof.Machine.execTimePpsEdge s
  | .streamStart f tag => Sys2Proof.Machine.execStreamStart f tag s
  | .streamStop f tag => Sys2Proof.Machine.execStreamStop f tag s
  | .streamReturnIdle st => Sys2Proof.Machine.execStreamReturnIdle st s
  | .csi2FrameStart port vc fn fixed dup => Sys2Proof.Machine.execCsi2FrameStart port vc fn fixed dup s
  | .csi2LinePacket port vc dt wc crcOk fixed data dup => Sys2Proof.Machine.execCsi2LinePacket port vc dt wc crcOk fixed data dup s
  | .csi2EmbeddedPacket port vc crcOk fixed data => Sys2Proof.Machine.execCsi2EmbeddedPacket port vc crcOk fixed data s
  | .csi2FrameEnd port vc fixed => Sys2Proof.Machine.execCsi2FrameEnd port vc fixed s
  | .csi2HeaderUncorrectable port => Sys2Proof.Machine.execCsi2HeaderUncorrectable port s
  | .csi2LaneSyncError port => Sys2Proof.Machine.execCsi2LaneSyncError port s
  | .ethLinkChange port up rate => Sys2Proof.Machine.execEthLinkChange port up rate s
  | .ethFrameReceive port fr => Sys2Proof.Machine.execEthFrameReceive port fr s
  | .packetDeclaredLost st => Sys2Proof.Machine.execPacketDeclaredLost st s
  | .bpDecisionAtVclHeader st irap isRef => Sys2Proof.Machine.execBpDecisionAtVclHeader st irap isRef s
  | .ingEthClassWrite n word v => Sys2Proof.Machine.execIngEthClassWrite n word v s
  | .pushAu st e => Sys2Proof.Machine.execPushAu st e s
  | .pushAuReadDone st ok data => Sys2Proof.Machine.execPushAuReadDone st ok data s
  | .pictureStart st info => Sys2Proof.Machine.execPictureStart st info s
  | .blockRowReconstructed d ns rows => Sys2Proof.Machine.execBlockRowReconstructed d ns rows s
  | .rowLimitExpiry d => Sys2Proof.Machine.execRowLimitExpiry d s
  | .pictureBudgetExpiry st => Sys2Proof.Machine.execPictureBudgetExpiry st s
  | .dualRowCrcCompare st => Sys2Proof.Machine.execDualRowCrcCompare st s
  | .checkerLag st => Sys2Proof.Machine.execCheckerLag st s
  | .encSessDescWrite f n word v => Sys2Proof.Machine.execEncSessDescWrite f n word v s
  | .start f n => Sys2Proof.Machine.execStart f n s
  | .stop f n => Sys2Proof.Machine.execStop f n s
  | .trigger f n => Sys2Proof.Machine.execTrigger f n s
  | .snippetTriggerEvent st typ => Sys2Proof.Machine.execSnippetTriggerEvent st typ s
  | .encSourcePicture n => Sys2Proof.Machine.execEncSourcePicture n s
  | .encRowStart n => Sys2Proof.Machine.execEncRowStart n s
  | .encSliceCoded n data => Sys2Proof.Machine.execEncSliceCoded n data s
  | .postWindowExpiry n => Sys2Proof.Machine.execPostWindowExpiry n s
  | .sourceLost n => Sys2Proof.Machine.execSourceLost n s
  | .viewDescriptorWrite st view word v => Sys2Proof.Machine.execViewDescriptorWrite st view word v s
  | .frontEndFrameStart st => Sys2Proof.Machine.execFrontEndFrameStart st s
  | .bandStart fe => Sys2Proof.Machine.execBandStart fe s
  | .bandDone fe => Sys2Proof.Machine.execBandDone fe s
  | .bandLimitExpiry fe => Sys2Proof.Machine.execBandLimitExpiry fe s
  | .bandCheckCompare fe agree => Sys2Proof.Machine.execBandCheckCompare fe agree s
  | .tileDescriptorWrite core pair d facts => Sys2Proof.Machine.execTileDescriptorWrite core pair d facts s
  | .escapementSlotStart ready => Sys2Proof.Machine.execEscapementSlotStart ready s
  | .tileIssue core => Sys2Proof.Machine.execTileIssue core s
  | .tileRejectResponse => Sys2Proof.Machine.execTileRejectResponse s
  | .tileWaitsMet core => Sys2Proof.Machine.execTileWaitsMet core s
  | .weightLoadDone core b => Sys2Proof.Machine.execWeightLoadDone core b s
  | .tileBeatsDone core stall => Sys2Proof.Machine.execTileBeatsDone core stall s
  | .wavefrontMismatch core arr row col => Sys2Proof.Machine.execWavefrontMismatch core arr row col s
  | .sequencerParityError core phase => Sys2Proof.Machine.execSequencerParityError core phase s
  | .epilogueDone core outs => Sys2Proof.Machine.execEpilogueDone core outs s
  | .tileClose core => Sys2Proof.Machine.execTileClose core s
  | .haloWrite core fwd => Sys2Proof.Machine.execHaloWrite core fwd s
  | .tileWatchdogExpiry core => Sys2Proof.Machine.execTileWatchdogExpiry core s
  | .stepStart p => Sys2Proof.Machine.execStepStart p s
  | .jobPlan p num ext fits cut sigs => Sys2Proof.Machine.execJobPlan p num ext fits cut sigs s
  | .trackerFrame st => Sys2Proof.Machine.execTrackerFrame st s
  | .trackerCompare st agree => Sys2Proof.Machine.execTrackerCompare st agree s
  | .trackerStageLimit st => Sys2Proof.Machine.execTrackerStageLimit st s
  | .trackerDescWrite st word v => Sys2Proof.Machine.execTrackerDescWrite st word v s
  | .recordStage port => Sys2Proof.Machine.execRecordStage port s
  | .collectorTurn => Sys2Proof.Machine.execCollectorTurn s
  | .frameRelease st agree => Sys2Proof.Machine.execFrameRelease st agree s
  | .frameCloseTimeout st => Sys2Proof.Machine.execFrameCloseTimeout st s
  | .ringStallTimeout q => Sys2Proof.Machine.execRingStallTimeout q s
  | .colStrmQueryWrite st v => Sys2Proof.Machine.execColStrmQueryWrite st v s
  | .signal who n amt => Sys2Proof.Machine.execSignal who n amt s
  | .reset f n => Sys2Proof.Machine.execReset f n s
  | .watchArm f w v => Sys2Proof.Machine.execWatchArm f w v s
  | .watchCopyDone w ok data => Sys2Proof.Machine.execWatchCopyDone w ok data s
  | .queueDescriptorWrite f q word v => Sys2Proof.Machine.execQueueDescriptorWrite f q word v s
  | .doorbellWrite f q v => Sys2Proof.Machine.execDoorbellWrite f q v s
  | .reservation tag holder pairs => Sys2Proof.Machine.execReservation tag holder pairs s
  | .reservationGrant => Sys2Proof.Machine.execReservationGrant s
  | .reservationAged => Sys2Proof.Machine.execReservationAged s
  | .share tag holder h newHolder last => Sys2Proof.Machine.execShare tag holder h newHolder last s
  | .drop tag holder h => Sys2Proof.Machine.execDrop tag holder h s
  | .free tag holder h => Sys2Proof.Machine.execFree tag holder h s
  | .poolThresholdWrite k v => Sys2Proof.Machine.execPoolThresholdWrite k v s
  | .poolBufQueryWrite f h => Sys2Proof.Machine.execPoolBufQueryWrite f h s
  | .memoryAccess flips q => Sys2Proof.Machine.execMemoryAccess flips q s
  | .dmaStarve holder index => Sys2Proof.Machine.execDmaStarve holder index s
  | .memDmaResumeWrite f v => Sys2Proof.Machine.execMemDmaResumeWrite f v s
  | .alertN ch again qs => Sys2Proof.Machine.execAlertN ch again qs s
  | .ddrRefresh ch => Sys2Proof.Machine.execDdrRefresh ch s
  | .selfRefreshEntry ch rank => Sys2Proof.Machine.execSelfRefreshEntry ch rank s
  | .zqCalibration ch rank => Sys2Proof.Machine.execZqCalibration ch rank s
  | .scrubStart => Sys2Proof.Machine.execScrubStart s
  | .scrubAbort done => Sys2Proof.Machine.execScrubAbort done s
  | .scrubPassDone => Sys2Proof.Machine.execScrubPassDone s
  | .detectedFault => Sys2Proof.Machine.execDetectedFault s
  | .controlPairMismatch pair => Sys2Proof.Machine.execControlPairMismatch pair s
  | .heartbeatMissing pair => Sys2Proof.Machine.execHeartbeatMissing pair s
  | .waitAudit => Sys2Proof.Machine.execWaitAudit s
  | .selfTestChunk r ok => Sys2Proof.Machine.execSelfTestChunk r ok s
  | .testOverdue r => Sys2Proof.Machine.execTestOverdue r s
  | .faultNTestWrite v => Sys2Proof.Machine.execFaultNTestWrite v s
  | .partitionProcessingStart p vfs ctl => Sys2Proof.Machine.execPartitionProcessingStart p vfs ctl s
  | .partitionProcessingStop p vfs => Sys2Proof.Machine.execPartitionProcessingStop p vfs s
  | .unsupportedRequest f kind bar addr posted => Sys2Proof.Machine.execUnsupportedRequest f kind bar addr posted s
  | .registerWrite f bar o data => Sys2Proof.Machine.execRegisterWrite f bar o data s
  | .msixUnmask f v => Sys2Proof.Machine.execMsixUnmask f v s
  | .busMasterEnableClear f d3 => Sys2Proof.Machine.execBusMasterEnableClear f d3 s
  | .powerOn src addr => Sys2Proof.Machine.execPowerOn src addr s
  | .perstNAssert => Sys2Proof.Machine.execPerstNAssert s
  | .coldStart t => Sys2Proof.Machine.execColdStart t s
  | .hotReset linkDown => Sys2Proof.Machine.execHotReset linkDown s
  | .pfFlr => Sys2Proof.Machine.execPfFlr s
  | .vfFlr f => Sys2Proof.Machine.execVfFlr f s
  | .restart t fault => Sys2Proof.Machine.execRestart t fault s
  | .powerOff => Sys2Proof.Machine.execPowerOff s
  | .porNAssert => Sys2Proof.Machine.execPorNAssert s
  | .nop f tag => Sys2Proof.Machine.execNop f tag s
  | .getInfo f tag => Sys2Proof.Machine.execGetInfo f tag s
  | .loadModel f tag ok b => Sys2Proof.Machine.execLoadModel f tag ok b s
  | .unloadModel f tag => Sys2Proof.Machine.execUnloadModel f tag s
  | .bind f tag => Sys2Proof.Machine.execBind f tag s
  | .unbind f tag => Sys2Proof.Machine.execUnbind f tag s
  | .restructure f tag ok b => Sys2Proof.Machine.execRestructure f tag ok b s
  | .calCommit f tag ok => Sys2Proof.Machine.execCalCommit f tag ok s
  | .selfTestFull f tag fails => Sys2Proof.Machine.execSelfTestFull f tag fails s
  | .supplyImage f tag t ok b b2 => Sys2Proof.Machine.execSupplyImage f tag t ok b b2 s
  | .attest f tag => Sys2Proof.Machine.execAttest f tag s
  | .jtagChallenge f tag => Sys2Proof.Machine.execJtagChallenge f tag s
  | .jtagResponse f tag => Sys2Proof.Machine.execJtagResponse f tag s
  | .longCommandEnd f => Sys2Proof.Machine.execLongCommandEnd f s
  | .job p e => Sys2Proof.Machine.execJob p e s
  | .roiListFetch st e => Sys2Proof.Machine.execRoiListFetch st e s
  | .submissionFetchError q => Sys2Proof.Machine.execSubmissionFetchError q s
  | .ecrcCheckFailure f => Sys2Proof.Machine.execEcrcCheckFailure f s
  | .smbusReadStatus => Sys2Proof.Machine.execSmbusReadStatus s
  | .smbusReadFaultCause => Sys2Proof.Machine.execSmbusReadFaultCause s
  | .smbusReadTempMax => Sys2Proof.Machine.execSmbusReadTempMax s
  | .smbusReadTempSensor k => Sys2Proof.Machine.execSmbusReadTempSensor k s
  | .smbusReadPowerNow => Sys2Proof.Machine.execSmbusReadPowerNow s
  | .smbusReadPowerCap => Sys2Proof.Machine.execSmbusReadPowerCap s
  | .smbusReadVddArray => Sys2Proof.Machine.execSmbusReadVddArray s
  | .smbusReadVddLogic => Sys2Proof.Machine.execSmbusReadVddLogic s
  | .smbusReadReefState => Sys2Proof.Machine.execSmbusReadReefState s
  | .smbusReadTb => Sys2Proof.Machine.execSmbusReadTb s
  | .smbusReadId => Sys2Proof.Machine.execSmbusReadId s
  | .smbusReadFaultRecord => Sys2Proof.Machine.execSmbusReadFaultRecord s
  | .smbusResetArm v => Sys2Proof.Machine.execSmbusResetArm v s
  | .smbusResetRequest v => Sys2Proof.Machine.execSmbusResetRequest v s
  | .secCalShadowWrite k v => Sys2Proof.Machine.execSecCalShadowWrite k v s
  | .revokeSlot slot confirm => Sys2Proof.Machine.execRevokeSlot slot confirm s
  | .advanceRollback confirm => Sys2Proof.Machine.execAdvanceRollback confirm s
  | .disableJtag confirm => Sys2Proof.Machine.execDisableJtag confirm s
  | .fuseBurnComplete ok => Sys2Proof.Machine.execFuseBurnComplete ok s
  | .jtagChallengeExpiry => Sys2Proof.Machine.execJtagChallengeExpiry s
  | .secJtagRelockWrite v => Sys2Proof.Machine.execSecJtagRelockWrite v s
  | .errorEvent picks => Sys2Proof.Machine.execErrorEvent picks s
  | .stickyBitClear idx unit mask again => Sys2Proof.Machine.execStickyBitClear idx unit mask again s
  | .errFirstStatusWrite v picks => Sys2Proof.Machine.execErrFirstStatusWrite v picks s
  | .ulpsEntryExit port ulps hs deskew => Sys2Proof.Machine.execUlpsEntryExit port ulps hs deskew s

end Sys2Proof.Machine
end

