-- ==== Sys2Proof/Safety.lean ====
section
/-!
DEFINITION. The terms in which claims speak of a run: the copies that registers keep of other state, and what a command leaves unchanged.
-/
namespace Sys2Proof.Machine

/-- The registers that copy other state show it: FAULT_N in SAF_STATUS and MGMT_STATUS, safe hold in MGMT_STATUS (Tables 13.12, 14.17), and ERR_SUMMARY every error register and the capture (R435). -/
def State.mirrored (s : State) : Prop :=
  s.bitAt Reg.safStatus 1 = s.pins.faultN ∧ s.bitAt Reg.mgmtStatus 6 = s.pins.faultN
    ∧ s.bitAt Reg.mgmtStatus 5 = s.bitAt Reg.safStatus 4 ∧ s.rd Reg.errSummary = s.errSummary

/-- The registers that the end of every command may write: the copies above, and sync objects that wait for their reset (R343). -/
def endReg (a : Nat) : Bool :=
  decide (a = Reg.safStatus) || decide (a = Reg.mgmtStatus) || decide (a = Reg.errSummary)
    || (decide (Reg.halSyncValue 0 ≤ a) && decide (a < Reg.halSyncValue 65536))

/-- Every byte of device memory reads as before, with the same words in error. -/
def State.sameMem (s t : State) : Prop := (∀ a, t.rdByte a = s.rdByte a) ∧ t.ecc = s.ecc

/-- Every register word reads as before, but those of `sel` and those that the end of a command may write. -/
def State.sameRegs (s t : State) (sel : Nat → Bool) : Prop := ∀ a, sel a = false → endReg a = false → t.rd a = s.rd a

/-- The outside of the device as before: host memory and what has left it. -/
def State.sameOutside (s t : State) : Prop := t.hostMem = s.hostMem ∧ t.out = s.out

/-- The fuses as before (R373, R399). -/
def State.sameFuses (s t : State) : Prop :=
  t.sec.revoked = s.sec.revoked ∧ t.sec.burnt = s.sec.burnt ∧ t.sec.jtagBurnt = s.sec.jtagBurnt
    ∧ t.sec.row0 = s.sec.row0 ∧ t.sec.row1 = s.sec.row1 ∧ t.sec.factoryGone = s.sec.factoryGone

end Sys2Proof.Machine
end

