-- ==== Sys2Proof/Certificates/Slice0/Obligations.lean ====
section
/-!
DEFINITION. The statements about the model that are to be proved.
-/

open Sys2Proof Sys2Proof.Machine

/-- For every command c, queue q and state s, a step of s with c in front of q is exec of c on s with the queue q. (derived; from 95_what_each_step_holds.md) -/
def Obligations.StepRunsTheFrontCommand : Prop :=
  ∀ (c : Instr) (q : List Instr) (s : State), step { s with pending := c :: q } = exec c { s with pending := q }

/-- A step on an empty queue, with no memory request waiting, moves all three copies of TB to the voted value plus the increment, unless REFCLK is lost, POR_N is low or VDD_AON is down, when TB holds. Memory, host memory, outputs and every register but those of the time base and of the end of a command stay. That an empty queue stands for a cycle is a choice of the model (log entry 1). (derived; from 02_timing_and_power.md, the time base: R43, R45) -/
def Obligations.EmptyQueueGivesOneRefclkCycle : Prop :=
  ∀ (s : State), s.pending = [] → s.dram.waiting = [] → ∃ t, step s = .next t ∧ t.pending = [] ∧ s.sameMem t ∧ s.sameOutside t
    ∧ s.sameRegs t (fun a => decide (0x100000 ≤ a) && decide (a < 0x200000))
    ∧ (if s.tb.held || s.pins.porLow || !s.pins.aonUp then t.tb = s.tb
       else t.tb.c0 = s.tb.vote + BitVec.ofInt 96 s.tbIncrement ∧ t.tb.c1 = t.tb.c0 ∧ t.tb.c2 = t.tb.c0)

/-- For every command and every state, exec answers a next state, whose queue is the queue that exec was given: no command faults, is refused, or touches the commands that wait. (derived; from 95_what_each_step_holds.md) -/
def Obligations.EveryCommandAnswersAndLeavesTheQueue : Prop :=
  ∀ (c : Instr) (s : State), ∃ t, exec c s = .next t ∧ t.pending = s.pending

/-- Whatever the state and the front command: after a step, SAF_STATUS.fault and MGMT_STATUS.fault show FAULT_N, MGMT_STATUS.safe_hold shows SAF_STATUS.safe_hold, and ERR_SUMMARY shows which error registers hold a set bit and whether the first capture is valid. The invariant needs no premise: a step restores it. (derived; from 13_partitions_and_safety.md, Table 13.12, 14_host_endpoint.md, Table 14.17, 19_error_record.md, R435 and Table 19.1) -/
def Obligations.CopiesHoldAfterEveryStep : Prop :=
  ∀ (s t : State), step s = .next t → t.mirrored

/-- The copies of CopiesHoldAfterEveryStep hold at reset. (derived; from 13_partitions_and_safety.md, Table 13.12, 16_start_and_restart.md, R371) -/
def Obligations.ResetShowsItsCopies : Prop :=
  State.reset.mirrored

/-- Right after the release of POR_N: TB reads 0, FAULT_N is asserted, MGMT_STATUS.state is BOOTING, only the PF exists, no partition processes, TB_INCR is 40 ns, the power cap is 28,000 mW, both rails are at 800 mV, SAF_LIMITS0 is 0x03E803E8, DDR_CTRL is 0x7D0003E8, no command waits, nothing has left the device. That State.reset is the state at the release of POR_N is a choice of the model (log entry 2). (derived; from 16_start_and_restart.md, R371, R372, 02_timing_and_power.md, Table 2.10, 12_memory.md, Table 12.11, 13_partitions_and_safety.md, Table 13.12, 14_host_endpoint.md, Table 14.17) -/
def Obligations.ResetLeavesTheTableValues : Prop :=
  State.reset.now = 0 ∧ State.reset.pins.faultN = true ∧ State.reset.devState = 0 ∧ State.reset.rd Reg.mgmtFuncState = 1
    ∧ State.reset.rd64 Reg.tbIncr = 0x2800000000 ∧ State.reset.rd Reg.pwtPowerCap = 28000 ∧ State.reset.rd Reg.pwtVddArray = 800
    ∧ State.reset.rd Reg.pwtVddLogic = 800 ∧ State.reset.rd Reg.safLimits0 = 0x03E803E8 ∧ State.reset.rd Reg.ddrCtrl = 0x7D0003E8
    ∧ State.reset.pending = [] ∧ State.reset.out = [] ∧ Memory.wf State.reset.mem = true

/-- With VDD_AON up, TELLTALE_READ of 102 pairs leaves in PWT_TT_RATE of every island the smaller of its pair, changes no other register but the lowest beat reading, PWT_ERR and the pending bit of its message, and no memory. (derived; from 02_timing_and_power.md, tell-tales: R26) -/
def Obligations.TelltaleReadingIsTheSlower : Prop :=
  ∀ (s : State) (rs : List (BitVec 16 × BitVec 16)), s.pins.aonUp = true → rs.length = 102 →
    ∃ t, exec (.telltaleRead rs) s = .next t ∧ s.sameMem t
      ∧ (∀ i p, rs[i]? = some p → t.rd (Reg.pwtTtRate i) = min p.1.toNat p.2.toNat)
      ∧ s.sameRegs t (fun a => (decide (Reg.pwtTtRate 0 ≤ a) && decide (a < Reg.pwtTtRate 102)) || decide (a = Reg.pwtBeatNow) || decide (a = Reg.pwtErr) || decide (a = msixPba 0 1))

/-- A PF write of PWT_POWER_CAP outside 12,000 to 40,000 mW reports CAP_RANGE and leaves the cap; one below PWT_CAP_MIN_S reports CAP_BELOW_CLASS_S and leaves the cap; any other is the cap and reports ACCEPTED. Nothing else changes. (stated; from R38) -/
def Obligations.PowerCapWriteIsTakenOrRefused : Prop :=
  ∀ (s : State) (v : Word), s.fnLive 0 = true →
    ∃ t, exec (.pwtPowerCapWrite v) s = .next t ∧ s.sameMem t ∧ s.sameOutside t
      ∧ s.sameRegs t (fun a => decide (a = Reg.pwtPowerCap) || decide (a = Reg.pwtCapResult))
      ∧ (if v.toNat < 12000 ∨ 40000 < v.toNat then t.rd Reg.pwtCapResult = 1 ∧ t.rd Reg.pwtPowerCap = s.rd Reg.pwtPowerCap
         else if v.toNat < s.rd Reg.pwtCapMinS then t.rd Reg.pwtCapResult = 2 ∧ t.rd Reg.pwtPowerCap = s.rd Reg.pwtPowerCap
         else t.rd Reg.pwtCapResult = 0 ∧ t.rd Reg.pwtPowerCap = v.toNat)

/-- With VDD_AON up: a frame failure with no retry due makes one due 20,000 ns on; a retry that succeeds is over; a retry that fails freezes the link and sets PWT_ERR.avs_comm; the second good status read in a row unfreezes it. The setpoint itself, all memory and what the device sends stay, but for the message of the error event. (derived; from 02_timing_and_power.md, Table 2.3 (R31), R37) -/
def Obligations.AvsFramesRetryOnceThenFreeze : Prop :=
  ∀ (s : State) (rail : Fin 2), s.pins.aonUp = true → s.pins.porLow = false →
    ((s.rail rail).retryDue = none → ∃ t, exec (.avsFrameFailure rail) s = .next t ∧ (t.rail rail).retryDue = some (s.now + 20000)
        ∧ s.sameMem t ∧ s.sameRegs t (fun _ => false))
    ∧ ((s.rail rail).retryDue.isSome = true → ∃ t, exec (.avsRetry rail true) s = .next t ∧ (t.rail rail).retryDue = none
        ∧ s.sameMem t ∧ s.sameRegs t (fun _ => false))
    ∧ ((s.rail rail).retryDue.isSome = true → ∃ t, exec (.avsRetry rail false) s = .next t ∧ t.frozen rail = true ∧ t.bitAt Reg.pwtErr 1 = true
        ∧ s.sameMem t ∧ s.sameRegs t (fun a => decide (a = Reg.pwtStatus) || decide (a = Reg.pwtErr) || decide (a = msixPba 0 1)))
    ∧ (s.frozen rail = true → 1 ≤ (s.rail rail).goodReads → ∃ t, exec (.avsFrozenStatusRetry rail true) s = .next t ∧ t.frozen rail = false
        ∧ s.sameMem t ∧ s.sameRegs t (fun a => decide (a = Reg.pwtStatus)))

/-- With VDD_AON up and no shutdown in force, THERMAL_SHUTDOWN leaves VDD_ARRAY at 600 mV and VDD_LOGIC at 650 mV, FAULT_N and THERMTRIP_N asserted, PWT_ERR.therm_shutdown set, and changes no other register but the fault record, and no memory. (derived; from 02_timing_and_power.md, temperature: R42) -/
def Obligations.ThermalShutdownDropsTheRails : Prop :=
  ∀ (s : State), s.pins.aonUp = true → s.pins.porLow = false → s.pwt.shutdown = false →
    ∃ t, exec .thermalShutdown s = .next t ∧ t.pwt.shutdown = true ∧ t.pins.thermtripN = true ∧ t.pins.faultN = true
      ∧ t.rd Reg.pwtVddArray = 600 ∧ t.rd Reg.pwtVddLogic = 650 ∧ t.bitAt Reg.pwtErr 10 = true ∧ s.sameMem t
      ∧ s.sameRegs t (fun a => [Reg.pwtVddArray, Reg.pwtVddLogic, Reg.pwtErr, msixPba 0 1, Reg.safFaultCnt, Reg.safFaultCause,
          Reg.safFaultTb, Reg.safFaultTb + 4, Reg.safFaultNTb, Reg.safFaultNTb + 4].contains a)

/-- A PF write of TB_ADJ_RATE from −200,000 to +200,000 ppb is kept; another leaves it and sets TB_ERR.adj_refused. A PF write of TB_SET with no stream active and no partition running, at or after the present time, is the time; another leaves the time and sets TB_ERR.adj_refused. No memory changes. (derived; from 02_timing_and_power.md, the time base: R45) -/
def Obligations.TimeBaseWritesAreTakenOrRefused : Prop :=
  ∀ (s : State), s.fnLive 0 = true →
    (∀ v : Word, ∃ t, exec (.tbAdjRateWrite v) s = .next t ∧ s.sameMem t ∧ t.tb = s.tb ∧
        (if sint 32 v.toNat < -200000 ∨ 200000 < sint 32 v.toNat then t.rd Reg.tbAdjRate = s.rd Reg.tbAdjRate ∧ t.bitAt Reg.tbErr 3 = true
         else t.rd Reg.tbAdjRate = v.toNat))
    ∧ (∀ v : BitVec 64, ∃ t, exec (.tbSetWrite v) s = .next t ∧ s.sameMem t ∧
        (if s.anyActive = true ∨ v.toNat < s.now then t.now = s.now ∧ t.bitAt Reg.tbErr 3 = true else t.now = v.toNat))

/-- With VDD_AON up: in PPS mode 0b01 an edge leaves TB in TB_PPS_CAPTURE, one more in TB_PPS_COUNT and TB_STATUS.pps set, and nothing else; in modes 0b00 and 0b11 it changes nothing. (derived; from 02_timing_and_power.md, TIME_PPS: R46) -/
def Obligations.PpsEdgeIsCapturedAndCounted : Prop :=
  ∀ (s : State), s.pins.aonUp = true →
    (s.ppsMode = 1 → ∃ t, exec .timePpsEdge s = .next t ∧ t.rd64 Reg.tbPpsCapture = s.now ∧ t.rd Reg.tbPpsCount = min (s.rd Reg.tbPpsCount + 1) 0xFFFFFFFF
        ∧ t.bitAt Reg.tbStatus 1 = true ∧ s.sameMem t ∧ s.sameOutside t
        ∧ s.sameRegs t (fun a => [Reg.tbPpsCapture, Reg.tbPpsCapture + 4, Reg.tbPpsCount, Reg.tbStatus].contains a))
    ∧ (s.ppsMode = 0 ∨ s.ppsMode = 3 → exec .timePpsEdge s = .next (s.finish s.pending))

/-- While ING_CSI_CTRL.enable of a port reads 0, every packet, header error, lane error and lane event of that port leaves everything as it was. (derived; from 03_stream_ingress.md, CSI-2 ports: R52, Table 3.7) -/
def Obligations.DisabledCsiPortChangesNothing : Prop :=
  ∀ (s : State) (port : Fin 8), s.bitAt (Reg.ingCsiCtrl port) 0 = false →
    (∀ vc fn fixed dup, exec (.csi2FrameStart port vc fn fixed dup) s = .next (s.finish s.pending))
    ∧ (∀ vc dt wc crcOk fixed data dup, exec (.csi2LinePacket port vc dt wc crcOk fixed data dup) s = .next (s.finish s.pending))
    ∧ (∀ vc crcOk fixed data, exec (.csi2EmbeddedPacket port vc crcOk fixed data) s = .next (s.finish s.pending))
    ∧ (∀ vc fixed, exec (.csi2FrameEnd port vc fixed) s = .next (s.finish s.pending))
    ∧ exec (.csi2HeaderUncorrectable port) s = .next (s.finish s.pending)
    ∧ exec (.csi2LaneSyncError port) s = .next (s.finish s.pending)
    ∧ (∀ ulps hs deskew, exec (.ulpsEntryExit port ulps hs deskew) s = .next (s.finish s.pending))

/-- On an enabled port out of reset, CSI2_HEADER_UNCORRECTABLE sets bit 0 of ING_CSI_ERR and CSI2_LANE_SYNC_ERROR bit 4; streams, sync objects, memory and every other register stay, but for the pending bit of the message. (derived; from 03_stream_ingress.md, R53, Table 3.6) -/
def Obligations.BadCsiHeaderIsCountedAgainstNoStream : Prop :=
  ∀ (s : State) (port : Fin 8), s.live = true → s.bitAt (Reg.ingCsiCtrl port) 0 = true →
    (∃ t, exec (.csi2HeaderUncorrectable port) s = .next t ∧ t.bitAt (Reg.ingCsiErr port) 0 = true ∧ t.ing = s.ing ∧ s.sameMem t
        ∧ s.sameRegs t (fun a => decide (a = Reg.ingCsiErr port) || decide (a = msixPba 0 1)))
    ∧ (∃ t, exec (.csi2LaneSyncError port) s = .next t ∧ t.bitAt (Reg.ingCsiErr port) 4 = true ∧ t.ing = s.ing ∧ s.sameMem t
        ∧ s.sameRegs t (fun a => decide (a = Reg.ingCsiErr port) || decide (a = msixPba 0 1)))

/-- After the first READY, a PF write to word 1 to 15 of an entry changes that register word and leaves every entry in force; a write to word 0 changes it and puts the 64 bytes of the registers in force for that entry alone. No memory changes. (derived; from 03_stream_ingress.md, classification: R64) -/
def Obligations.ClassEntryTakesEffectWithItsFirstWord : Prop :=
  ∀ (s : State) (n : Fin 128) (word : Fin 16) (v : Word), s.fnLive 0 = true → s.sec.started = true →
    ∃ t, exec (.ingEthClassWrite n word v) s = .next t ∧ t.rd (Reg.ingEthClass n + 4 * word) = v.toNat ∧ s.sameMem t ∧ s.sameOutside t
      ∧ s.sameRegs t (fun a => decide (a = Reg.ingEthClass n + 4 * word))
      ∧ (word ≠ 0 → t.ing = s.ing)
      ∧ (word = 0 → ∀ m, Tab.read (fun _ => 0) t.ing.classes m = if m = n then BitVec.ofNat 512 (t.rdWords (Reg.ingEthClass n) 16) else Tab.read (fun _ => 0) s.ing.classes m)

/-- After the first READY: a write to a session descriptor whose session is not idle, to a view descriptor whose stream is not idle, and to a tracker descriptor that is enabled changes no register but the block's error register (ENC_ERR.desc_busy, PFE_ERR.desc_busy, TRK_ERR.desc_busy) and the pending bit of the message, and no memory. (derived; from 04_bitstream_engines.md, R106, 05_pixel_front_end.md, R107, 10_tracking_and_results.md, R231) -/
def Obligations.BusyDescriptorsAreLeftAlone : Prop :=
  ∀ (s : State) (word : Fin 16) (v : Word), s.sec.started = true →
    (∀ f n : Fin 16, s.fnLive f = true → s.sessState n ≠ 0 → ∃ t, exec (.encSessDescWrite f n word v) s = .next t
        ∧ t.bitAt Reg.encErr 0 = true ∧ s.sameMem t ∧ s.sameRegs t (fun a => decide (a = Reg.encErr) || decide (a = msixPba 0 1)))
    ∧ (∀ (st : Fin 96) (view : Fin 4), s.fnLive 0 = true → s.stRun st ≠ 0 → ∃ t, exec (.viewDescriptorWrite st view word v) s = .next t
        ∧ t.bitAt Reg.pfeErr 1 = true ∧ s.sameMem t ∧ s.sameRegs t (fun a => decide (a = Reg.pfeErr) || decide (a = msixPba 0 1)))
    ∧ (∀ st : Fin 96, s.fnLive 0 = true → s.trkOn st = true → ∃ t, exec (.trackerDescWrite st word v) s = .next t
        ∧ t.bitAt Reg.trkErr 6 = true ∧ s.sameMem t ∧ s.sameRegs t (fun a => decide (a = Reg.trkErr) || decide (a = msixPba 0 1)))

/-- Out of reset, ESCAPEMENT_SLOT_START leaves every core with the slot number that TB gives; the descriptors in the FIFOs, in phases 1 and 2 and handed back to the planner are as many together as before; no memory, no host memory and no register but TC_STATUS changes. Which descriptors a core hands back when a partition reclaims its slot is the model's reading (log entry 54). (derived; from 09_tiles_and_scheduling.md, the escapement: R221) -/
def Obligations.EverySlotStartsOnEveryCore : Prop :=
  ∀ (s : State) (ready : List (BitVec 16)), s.live = true → ∃ t, exec (.escapementSlotStart ready) s = .next t ∧ s.sameMem t ∧ s.sameOutside t
      ∧ (∀ c, c < 8 → (t.core c).slotNow = s.now % 1000000 / 50000)
      ∧ ((List.range 8).map (fun c => (t.core c).fifo.length + (t.core c).wait1.toList.length + (t.core c).prep.toList.length)).sum + t.pln.returned.length
        = ((List.range 8).map (fun c => (s.core c).fifo.length + (s.core c).wait1.toList.length + (s.core c).prep.toList.length)).sum + s.pln.returned.length
      ∧ s.sameRegs t (fun a => (List.range 8).any (fun c => decide (a = Reg.tcStatus c)))

/-- Out of reset, with no tile in phase 1 and the head descriptor granted: where an issue check gives a code, TILE_ISSUE takes the descriptor from the FIFO, puts a reject with that code last among the planner's, and starts nothing: no memory, no other core and no register changes but TC_STATUS of the core, ERR_PLN and the pending bit of its message. (derived; from 09_tiles_and_scheduling.md, R211, R213, Table 9.5) -/
def Obligations.RejectedDescriptorLeavesTheFifo : Prop :=
  ∀ (s : State) (core : Fin 8) (x : Tile) (rest : List Tile) (code : Nat), s.live = true →
    (s.core core).fifo = x :: rest → (s.core core).wait1 = none → s.isGranted core x.part = true → s.issueCode core x = some code →
    ∃ t, exec (.tileIssue core) s = .next t ∧ (t.core core).fifo = rest ∧ (t.core core).wait1 = none ∧ (t.core core).prep = (s.core core).prep
      ∧ t.pln.rejects = s.pln.rejects ++ [{ pair := x.pair, core := core, code := code, tile := x }]
      ∧ s.sameMem t ∧ (∀ c, c ≠ core.val → t.core c = s.core c)
      ∧ s.sameRegs t (fun a => decide (a = Reg.tcStatus core) || decide (a = Reg.errPln) || decide (a = msixPba 0 1))

/-- Out of reset, with a reject of a class S partition's tile oldest, TILE_REJECT_RESPONSE takes it and reports a detected fault with cause TILE_REJECT, subsystem 8 and the core, dated now; no register and no memory changes. (derived; from 09_tiles_and_scheduling.md, R213, 13_partitions_and_safety.md, Table 13.6) -/
def Obligations.RejectInClassSIsAFault : Prop :=
  ∀ (s : State) (r : Reject) (rest : List Reject), s.live = true → s.pln.rejects = r :: rest → s.classS r.tile.part = true →
    ∃ t, exec .tileRejectResponse s = .next t ∧ t.pln.rejects = rest
      ∧ t.saf.reports = s.saf.reports ++ [{ cause := 0x03, subsys := 8, unit := r.core, part := some r.tile.part, tb := s.now }]
      ∧ s.sameMem t ∧ s.sameOutside t ∧ s.sameRegs t (fun _ => false)

/-- After the first READY, a PF write of a frame counter to COL_STRM_QUERY keeps the counter and sets COL_STRM_RESULT: NOT_READY for a frame that is open; for one that is not open and not newer than the last close, CLOSED or WITHDRAWN with its cause where its close is kept, else UNKNOWN. Nothing else changes. (derived; from 10_tracking_and_results.md, R244, Table 10.12) -/
def Obligations.FrameQueryAnswersFromTheCloses : Prop :=
  ∀ (s : State) (st : Fin 96) (v : Word), s.fnLive 0 = true → s.sec.started = true →
    ∃ t, exec (.colStrmQueryWrite st v) s = .next t ∧ t.rd (Reg.colStrmQuery st) = v.toNat ∧ s.sameMem t ∧ s.sameOutside t ∧ t.col = s.col
      ∧ s.sameRegs t (fun a => decide (a = Reg.colStrmQuery st) || decide (a = Reg.colStrmResult st))
      ∧ (s.frameOpen st v.toNat = true → t.rd (Reg.colStrmResult st) = 0)
      ∧ (s.frameOpen st v.toNat = false → (s.closes st).isEmpty = false →
          ((v.toNat + 2 ^ 32 - s.rd (Reg.colStrmLastClose st)) % 2 ^ 32 = 0 ∨ 2 ^ 31 ≤ (v.toNat + 2 ^ 32 - s.rd (Reg.colStrmLastClose st)) % 2 ^ 32) →
          ((s.closes st).find? (fun c => c.counter = v.toNat) = none → t.rd (Reg.colStrmResult st) = 3)
          ∧ (∀ c, (s.closes st).find? (fun c => c.counter = v.toNat) = some c → t.rd (Reg.colStrmResult st) = ((if c.withdrawn then 2 else 1) + 4 * c.cause) % 2 ^ 32))

/-- Out of reset, with no object waiting for a reset: a device unit's signal of a named object leaves it at its value plus the amount, held at 2^64 − 1, whatever watches it fires. (derived; from 11_halyard_and_pools.md, sync objects: R250) -/
def Obligations.SignalRaisesAndSaturates : Prop :=
  ∀ (s : State) (n : BitVec 16) (amt : BitVec 32), s.live = true → s.hal.lateReset = [] → n.toNat ≠ noSync →
    ∃ t, exec (.signal none n amt) s = .next t ∧ t.syncVal n.toNat = min (s.syncVal n.toNat + amt.toNat) (2 ^ 64 - 1)

/-- After the first READY, a function's RESET of a named object: outside its range HAL_ERR.fence is set; while a wait names the object HAL_ERR.reset_pending is set; both leave the object and all memory as they were. Otherwise the object reads 0. (derived; from 11_halyard_and_pools.md, R250, Table 11.9) -/
def Obligations.ResetOfAWaitedObjectIsRefused : Prop :=
  ∀ (s : State) (f : Fin 16) (n : BitVec 16), s.fnLive f = true → s.sec.started = true → s.hal.lateReset = [] → n.toNat ≠ noSync →
    ∃ t, exec (.reset f n) s = .next t ∧ s.sameMem t ∧
      (if s.inSyncRange f n.toNat = false then t.bitAt Reg.halErr 2 = true ∧ t.syncVal n.toNat = s.syncVal n.toNat
       else if s.waitNames n.toNat = true then t.bitAt Reg.halErr 0 = true ∧ t.syncVal n.toNat = s.syncVal n.toNat
       else t.syncVal n.toNat = 0)

/-- After the first READY, a function's doorbell to its own enabled submission or result queue: a step ahead that the queue's size, or for a result queue its contents, does not allow sets bit 3 of HAL_ERR and leaves every other register but HAL_ERR_LOC and the pending bit of the message; no memory changes. (derived; from 11_halyard_and_pools.md, doorbells: R256) -/
def Obligations.DoorbellMovesItsIndexOrIsRefused : Prop :=
  ∀ (s : State) (f : Fin 16) (q : Fin 16384) (v : Word), s.fnLive f = true → s.sec.started = true → s.qOwner q = f → s.qAllocated q = true → s.qEnabled q = true →
    ((s.qType q = 0 ∧ s.qSize q < (v.toNat + 2 ^ 32 - s.qP q) % 2 ^ 32) ∨ (s.qType q = 1 ∧ s.qHeld q < (v.toNat + 2 ^ 32 - s.qC q) % 2 ^ 32)) →
    ∃ t, exec (.doorbellWrite f q v) s = .next t ∧ t.bitAt Reg.halErr 3 = true ∧ s.sameMem t
      ∧ s.sameRegs t (fun a => decide (a = Reg.halErr) || decide (a = Reg.halErrLoc) || decide (a = msixPba 0 1))

/-- Out of reset, a class F reservation that cannot be granted whole is put last among those that wait, dated now, and no buffer changes its holder. (derived; from 11_halyard_and_pools.md, reservations: R261) -/
def Obligations.ReservationThatCannotBeGrantedWaits : Prop :=
  ∀ (s : State) (tag : Fin 16) (holder : BitVec 8) (pairs : List (Fin 256 × BitVec 16)), s.live = true → s.classS tag = false →
    s.tryReserve tag holder.toNat (pairs.map (fun p => (p.1.val, p.2.toNat))) = none →
    ∃ t, exec (.reservation tag holder pairs) s = .next t ∧ t.pool.bufs = s.pool.bufs ∧ s.sameMem t
      ∧ t.pool.waiting = s.pool.waiting ++ [{ tag := tag, holder := holder.toNat, pairs := pairs.map (fun p => (p.1.val, p.2.toNat)), tb := s.now }]

/-- Out of reset, with no request waiting: a write that its buckets, its grant, its bank and its channel let through, to memory without words in error, leaves byte k of its data at address a + k for every k below its length, and every other byte as it was; a request that its buckets do not admit waits, and no memory, no register but those of the end of a command and nothing outside changes. (derived; from 12_memory.md, R277, R280, R284, 13_partitions_and_safety.md, R294, R297) -/
def Obligations.WriteStoresItsBytesAndNoOther : Prop :=
  ∀ (s : State) (q : MemReq), s.live = true → q.write = true → innerReader q.reader = false → s.mapped q.addr = true → s.mapped (q.addr + (q.len - 1)) = true
    → (memKind q.addr = some 0 ∨ memKind q.addr = some 1 ∨ memKind q.addr = some 2) → s.granted2 q.part.toNat q.addr q.len = true
    → s.granted2 q.part.toNat (q.addr + (q.len - 1)) 1 = true → (q.dma = true → s.bankOn q.addr = true ∧ s.pdState (bankDomain q.addr) ≠ 0) → (memKind q.addr = some 0 → s.chState (s.chanOf q.addr) ≠ 3) → s.ecc = [] →
    s.dram.waiting = [] → (s.admissible q = true →
    ∃ t, exec (.memoryAccess [] q) s = .next t ∧ (∀ k, k < q.len → t.rdByte (q.addr + k) = BitVec.ofNat 8 (q.data >>> (8 * k)))
      ∧ (∀ b, b < q.addr ∨ q.addr + q.len ≤ b → t.rdByte b = s.rdByte b) ∧ t.ecc = [] ∧ s.sameOutside t)
    ∧ (s.admissible q = false →
    ∃ t, exec (.memoryAccess [] q) s = .next t ∧ t.dram.waiting = [q] ∧ s.sameMem t ∧ s.sameOutside t ∧ s.sameRegs t (fun _ => false))

/-- After the first READY: MEM_DMA_HALT after a write of v to MEM_DMA_RESUME holds the bits it held but those set in v, for the PF, or but the function's own bit where bit 0 of v is 1, for a VF. Nothing else changes. (derived; from 12_memory.md, R281) -/
def Obligations.DmaResumeClearsTheBitsItMay : Prop :=
  ∀ (s : State) (f : Fin 16) (v : Word) (k : Fin 32), s.fnLive f = true → s.sec.started = true →
    ∃ t, exec (.memDmaResumeWrite f v) s = .next t ∧ s.sameMem t ∧ s.sameOutside t ∧ s.sameRegs t (fun a => decide (a = Reg.memDmaHalt))
      ∧ t.bitAt Reg.memDmaHalt k = (s.bitAt Reg.memDmaHalt k && !(if f = 0 then decide (k.val < 16) && v.getLsbD k else decide (k.val = f.val) && v.getLsbD 0))

/-- Out of reset, on a ready channel: an active rank without a request for sr_idle_us is in self-refresh afterwards with DDR_SR_ENTRIES one higher; a rank with a later request stays. No memory changes. (derived; from 12_memory.md, R287) -/
def Obligations.IdleRankEntersSelfRefresh : Prop :=
  ∀ (s : State) (ch : Fin 4) (rank : Fin 2), s.live = true → s.chState ch = 2 → s.rankState ch rank = 0 →
    ∃ t, exec (.selfRefreshEntry ch rank) s = .next t ∧ s.sameMem t ∧ s.sameOutside t
      ∧ s.sameRegs t (fun a => decide (a = Reg.ddrChStatus ch) || decide (a = Reg.ddrSrEntries ch))
      ∧ (if Tab.read (fun _ => 0) s.dram.lastReq (2 * ch.val + rank.val) + 1000 * clampNat 1 1000000 (s.fld Reg.ddrCtrl 0 20) ≤ s.now
         then t.rankState ch rank = 1 ∧ t.rd (Reg.ddrSrEntries ch) = min (s.rd (Reg.ddrSrEntries ch) + 1) 0xFFFFFFFF
         else t.rankState ch rank = 0)

/-- Out of reset, each sets its bit of SAF_ERR and puts a report with cause CONTROL_PAIR, the subsystem of the pair (14 for SM, else 8) and the pair, dated now, last among the reports; memory and every other register stay, but for the pending bit of the message. (derived; from 13_partitions_and_safety.md, R310, Table 13.6) -/
def Obligations.ControlPairFaultsAreReported : Prop :=
  ∀ (s : State), s.live = true →
    (∀ pair : Fin 4, ∃ t, exec (.controlPairMismatch pair) s = .next t ∧ t.bitAt Reg.safErr 4 = true ∧ s.sameMem t
        ∧ t.saf.reports = s.saf.reports ++ [{ cause := 0x04, subsys := controlSubsys pair, unit := pair, tb := s.now }]
        ∧ s.sameRegs t (fun a => decide (a = Reg.safErr) || decide (a = msixPba 0 1)))
    ∧ (∀ pair : Fin 3, ∃ t, exec (.heartbeatMissing pair) s = .next t ∧ t.bitAt Reg.safErr 5 = true ∧ s.sameMem t
        ∧ t.saf.reports = s.saf.reports ++ [{ cause := 0x04, subsys := controlSubsys pair, unit := pair, tb := s.now }]
        ∧ s.sameRegs t (fun a => decide (a = Reg.safErr) || decide (a = msixPba 0 1)))

/-- A PF write of SAF_CTRL with bit 0 set, with no class S partition active, asserts FAULT_N and reads back; while one is active, a write changes nothing. No memory changes. (derived; from 13_partitions_and_safety.md, R318, Table 13.12) -/
def Obligations.FaultNTestAssertsFaultN : Prop :=
  ∀ (s : State) (v : Word), s.fnLive 0 = true →
    (s.sActive = true → exec (.faultNTestWrite v) s = .next (s.finish s.pending))
    ∧ (s.sActive = false → v.getLsbD 0 = true → ∃ t, exec (.faultNTestWrite v) s = .next t ∧ t.pins.faultN = true ∧ t.rd Reg.safCtrl = 1
        ∧ t.bitAt Reg.safStatus 7 = true ∧ s.sameMem t ∧ s.sameOutside t
        ∧ s.sameRegs t (fun a => [Reg.safCtrl, Reg.safFaultNTb, Reg.safFaultNTb + 4].contains a))

/-- While the PF answers: a request of Table 14.5 adds 1 to MGMT_UR_CNT and sets MGMT_ERR.ur; while that bit read 0, its function, kind and BAR stand in MGMT_UR_LOG and its address in MGMT_UR_ADDR, else both stay. No memory changes. (derived; from 14_host_endpoint.md, R340, Table 14.5) -/
def Obligations.UnsupportedRequestIsCountedAndLogged : Prop :=
  ∀ (s : State) (f : Fin 16) (kind : Fin 9) (bar : Fin 4) (addr : BitVec 64) (posted : Bool), s.fnLive 0 = true →
    ∃ t, exec (.unsupportedRequest f kind bar addr posted) s = .next t ∧ t.rd Reg.mgmtUrCnt = min (s.rd Reg.mgmtUrCnt + 1) 0xFFFFFFFF
      ∧ t.bitAt Reg.mgmtErr 0 = true ∧ t.hep.aerUr.getLsbD f = true ∧ s.sameMem t
      ∧ (if s.bitAt Reg.mgmtErr 0 = true then t.rd Reg.mgmtUrLog = s.rd Reg.mgmtUrLog ∧ t.rd64 Reg.mgmtUrAddr = s.rd64 Reg.mgmtUrAddr
         else t.rd Reg.mgmtUrLog = f.val + 16 * kind.val + 256 * bar.val ∧ t.rd64 Reg.mgmtUrAddr = addr.toNat)
      ∧ s.sameRegs t (fun a => [Reg.mgmtUrCnt, Reg.mgmtErr, Reg.mgmtUrLog, Reg.mgmtUrAddr, Reg.mgmtUrAddr + 4, msixPba 0 1].contains a)

/-- For a PF vector: with Bus Master Enable set and its pending bit set, MSIX_UNMASK leaves the mask and the pending bit 0 and sends one message; with the pending bit 0 it sends none. Nothing else changes. (derived; from 14_host_endpoint.md, R339) -/
def Obligations.UnmaskedVectorFiresOnce : Prop :=
  ∀ (s : State) (v : Fin 2048), s.fnLive 0 = true → s.canIssue 0 = true →
    ∃ t, exec (.msixUnmask 0 v) s = .next t ∧ t.bitAt (msixCtl 0 v) 0 = false ∧ t.bitAt (msixPba 0 v) (v.val % 32) = false ∧ s.sameMem t
      ∧ t.out = (if s.bitAt (msixPba 0 v) (v.val % 32) = true then .msix 0 v :: s.out else s.out)
      ∧ s.sameRegs t (fun a => decide (a = msixCtl 0 v) || decide (a = msixPba 0 v))

/-- While function f answers: a write TLP of another size or alignment than R338 allows sets MGMT_ERR.bad_write and changes no other register but the pending bit of the message. Before the first READY an aligned 4-byte PF write to a register of subsystems 2 to 13 changes nothing at all. (derived; from 14_host_endpoint.md, R338, 16_start_and_restart.md, R382) -/
def Obligations.BadWritesAreDiscarded : Prop :=
  ∀ (s : State) (f : Fin 16) (bar : Fin 2) (o : BitVec 28) (data : Blob), s.fnLive f = true →
    (tlpOk o.toNat data.len = false → ∃ t, exec (.registerWrite f bar o data) s = .next t ∧ t.bitAt Reg.mgmtErr 1 = true ∧ s.sameMem t
        ∧ s.sameRegs t (fun a => decide (a = Reg.mgmtErr) || decide (a = msixPba 0 1)))
    ∧ (∀ ro, f = 0 → bar = 0 → data.len = 4 → o.toNat % 4 = 0 → s.sec.started = false → 0x500000 ≤ o.toNat → o.toNat < 0x1100000 →
        s.place 0 0 o.toNat = .reg o.toNat ro → exec (.registerWrite f bar o data) s = .next (s.finish s.pending))

/-- For a function that answers and whose mailbox is BUSY, each mailbox command leaves the state of the mailbox, adds 1 to MGMT_MBX_IGNORED and sets MGMT_ERR.mbx_ignored; every other register but the pending bit of the message stays, and all memory. (derived; from 14_host_endpoint.md, R345) -/
def Obligations.BusyMailboxIgnoresCommands : Prop :=
  ∀ (s : State) (f : Fin 16) (tag : BitVec 8) (c : Instr), s.fnLive f = true → s.mbxState f = 1 →
    (c = .nop f tag ∨ c = .getInfo f tag ∨ c = .bind f tag ∨ c = .unbind f tag ∨ c = .streamStart f tag ∨ c = .streamStop f tag ∨ c = .unloadModel f tag
      ∨ c = .attest f tag ∨ c = .jtagChallenge f tag ∨ c = .jtagResponse f tag ∨ (∃ ok b, c = .loadModel f tag ok b) ∨ (∃ ok b, c = .restructure f tag ok b)
      ∨ (∃ ok, c = .calCommit f tag ok) ∨ (∃ x, c = .selfTestFull f tag x) ∨ (∃ x ok b b2, c = .supplyImage f tag x ok b b2)) →
    ∃ t, exec c s = .next t ∧ t.mbxState f = 1 ∧ t.rd (Reg.mgmtMbxIgnored f) = min (s.rd (Reg.mgmtMbxIgnored f) + 1) 0xFFFFFFFF
      ∧ t.bitAt Reg.mgmtErr 3 = true ∧ s.sameMem t
      ∧ s.sameRegs t (fun a => decide (a = Reg.mgmtMbxIgnored f) || decide (a = Reg.mgmtErr) || decide (a = msixPba 0 1))

/-- For a function that answers and whose mailbox is not BUSY: NOP leaves its mailbox DONE with the tag, code OK, progress 100 and results 0; GET_INFO leaves the same with the function's partition, class, rank, period and ranges as results. No memory changes. (derived; from 14_host_endpoint.md, R345, Table 14.11) -/
def Obligations.NopAndGetInfoEndAtOnce : Prop :=
  ∀ (s : State) (f : Fin 16) (tag : BitVec 8), s.fnLive f = true → s.mbxState f ≠ 1 →
    (∃ t, exec (.nop f tag) s = .next t ∧ t.rd (Reg.mgmtMbxStatus f) = 2 + 256 * tag.toNat + 100 * 2 ^ 24 ∧ t.rdWords (Reg.mgmtMbxResult f) 16 = 0 ∧ s.sameMem t)
    ∧ (∃ t, exec (.getInfo f tag) s = .next t ∧ t.rd (Reg.mgmtMbxStatus f) = 2 + 256 * tag.toNat + 100 * 2 ^ 24
        ∧ t.rdWords (Reg.mgmtMbxResult f) 16 = s.infoWords f % 2 ^ 512 ∧ s.sameMem t)

/-- For a function that answers and whose mailbox is not BUSY: while the state is not READY, LOAD_MODEL, UNLOAD_MODEL, BIND, UNBIND, STREAM_START, STREAM_STOP and ATTEST end DONE with code WRONG_STATE; a VF's RESTRUCTURE, CAL_COMMIT, SELF_TEST_FULL, SUPPLY_IMAGE, JTAG_CHALLENGE and JTAG_RESPONSE end DONE with NOT_PERMITTED in every state. Neither changes memory, models, sequences or fuses. (derived; from 16_start_and_restart.md, R381, R382, 14_host_endpoint.md, Table 14.12) -/
def Obligations.CommandsBeforeReadyEndWithWrongState : Prop :=
  ∀ (s : State) (f : Fin 16) (tag : BitVec 8) (c : Instr), s.fnLive f = true → s.mbxState f ≠ 1 →
    (s.devState ≠ 5 → ((∃ ok b, c = .loadModel f tag ok b) ∨ c = .unloadModel f tag ∨ c = .bind f tag ∨ c = .unbind f tag ∨ c = .streamStart f tag ∨ c = .streamStop f tag ∨ c = .attest f tag) →
      ∃ t, exec c s = .next t ∧ t.mbxState f = 2 ∧ t.fld (Reg.mgmtMbxStatus f) 16 8 = 0x06 ∧ s.sameMem t ∧ t.pln = s.pln ∧ s.sameFuses t)
    ∧ (f ≠ 0 → ((∃ ok b, c = .restructure f tag ok b) ∨ (∃ ok, c = .calCommit f tag ok) ∨ (∃ x, c = .selfTestFull f tag x)
        ∨ (∃ x ok b b2, c = .supplyImage f tag x ok b b2) ∨ c = .jtagChallenge f tag ∨ c = .jtagResponse f tag) →
      ∃ t, exec c s = .next t ∧ t.mbxState f = 2 ∧ t.fld (Reg.mgmtMbxStatus f) 16 8 = 0x02 ∧ s.sameMem t ∧ t.pln = s.pln ∧ s.sameFuses t)

/-- With VDD_AON up and POR_N released: from TB = 20 ms on, each read code puts its bytes and the value of its register on the bus; before that the target does not acknowledge. A read changes nothing else. (derived; from 14_host_endpoint.md, R351, Table 14.15) -/
def Obligations.SmbusTargetAnswers : Prop :=
  ∀ (s : State), s.pins.aonUp = true → s.pins.porLow = false →
    ∀ c n v, ((c = .smbusReadStatus ∧ n = 2 ∧ v = s.smbusStatus) ∨ (c = .smbusReadFaultCause ∧ n = 2 ∧ v = s.fld Reg.safFaultCause 0 16)
      ∨ (c = .smbusReadTempMax ∧ n = 2 ∧ v = s.fld Reg.pwtTempMax 16 16) ∨ (∃ k : Fin 12, c = .smbusReadTempSensor k ∧ n = 2 ∧ v = s.fld (Reg.pwtTemp k) 0 16)
      ∨ (c = .smbusReadPowerNow ∧ n = 2 ∧ v = s.fld Reg.pwtPowerNow 0 16) ∨ (c = .smbusReadPowerCap ∧ n = 2 ∧ v = s.fld Reg.pwtPowerCap 0 16)
      ∨ (c = .smbusReadVddArray ∧ n = 2 ∧ v = s.fld Reg.pwtVddArray 0 16) ∨ (c = .smbusReadVddLogic ∧ n = 2 ∧ v = s.fld Reg.pwtVddLogic 0 16)
      ∨ (c = .smbusReadReefState ∧ n = 2 ∧ v = s.fld Reg.pwtReefState 0 16) ∨ (c = .smbusReadTb ∧ n = 8 ∧ v = s.now)
      ∨ (c = .smbusReadId ∧ n = 16 ∧ v = s.smbusId) ∨ (c = .smbusReadFaultRecord ∧ n = 16 ∧ v = s.smbusFault)) →
    ∃ t, exec c s = .next t ∧ t.out = (if 20000000 ≤ s.now then .smbus n v else .smbusNack) :: s.out ∧ s.sameMem t ∧ t.hostMem = s.hostMem ∧ s.sameRegs t (fun _ => false)

/-- With no burn in progress and no command in the PF's mailbox, POWER_OFF leaves TB at 0, memory without contents, every register but the copies at its power-on value, POR_N low, VDD_AON down, and the fuses as they were. (derived; from 16_start_and_restart.md, R393) -/
def Obligations.PowerOffKeepsTheFusesAlone : Prop :=
  ∀ (s : State), s.pins.aonUp = true → s.sec.burn = none → s.mbxRun 0 = none →
    ∃ t, exec .powerOff s = .next t ∧ t.now = 0 ∧ t.mem = [] ∧ t.pins.aonUp = false ∧ t.pins.porLow = true ∧ s.sameFuses t
      ∧ (∀ a, endReg a = false → t.rd a = State.reset.rd a)

/-- Out of reset, PERST_N_ASSERT leaves every register of the ERR block but ERR_SUMMARY as it was, and TB; device memory loses its contents, PERST_N is low and FAULT_N asserted. (derived; from 19_error_record.md, R441, 14_host_endpoint.md, Table 14.7) -/
def Obligations.ErrorRecordSurvivesPerst : Prop :=
  ∀ (s : State), s.live = true → ∃ t, exec .perstNAssert s = .next t ∧ t.pins.perstLow = true ∧ t.pins.faultN = true ∧ t.mem = [] ∧ t.tb = s.tb
      ∧ (∀ a, 0x400000 ≤ a → a < 0x500000 → a ≠ Reg.errSummary → t.rd a = s.rd a)

/-- From READY, HOT_RESET and PF_FLR leave MGMT_STATUS.state at RESTARTING with the restart dated now. (derived; from 14_host_endpoint.md, Table 14.7, 16_start_and_restart.md, R392) -/
def Obligations.HotResetBeginsARestart : Prop :=
  ∀ (s : State) (linkDown : Bool), s.live = true → s.devState = 5 →
    (∃ t, exec (.hotReset linkDown) s = .next t ∧ t.devState = 6 ∧ t.sec.restart = 2 )
    ∧ (∃ t, exec .pfFlr s = .next t ∧ t.devState = 6 ∧ t.sec.restart = 3)

/-- The events of the units that resets hold leave everything as it was while the units are held. (derived; from 16_start_and_restart.md, R371, 19_error_record.md, R441) -/
def Obligations.HeldUnitsIgnoreTheirEvents : Prop :=
  ∀ (s : State), s.live = false →
    (∀ (domain : Fin 253) (state : Fin 3), exec (.powerDomainRequest domain state) s = .next (s.finish s.pending))
    ∧ (∀ (st : Fin 96), exec (.streamReturnIdle st) s = .next (s.finish s.pending))
    ∧ (∀ (port : Fin 8) (vc : Fin 16) (fn : BitVec 16) (fixed dup : Bool), exec (.csi2FrameStart port vc fn fixed dup) s = .next (s.finish s.pending))
    ∧ (∀ (port : Fin 8) (vc : Fin 16) (dt : BitVec 6) (wc : BitVec 16) (crcOk fixed : Bool) (data : Blob) (dup : Bool), exec (.csi2LinePacket port vc dt wc crcOk fixed data dup) s = .next (s.finish s.pending))
    ∧ (∀ (port : Fin 8) (vc : Fin 16) (crcOk fixed : Bool) (data : Blob), exec (.csi2EmbeddedPacket port vc crcOk fixed data) s = .next (s.finish s.pending))
    ∧ (∀ (port : Fin 8) (vc : Fin 16) (fixed : Bool), exec (.csi2FrameEnd port vc fixed) s = .next (s.finish s.pending))
    ∧ (∀ (port : Fin 8), exec (.csi2HeaderUncorrectable port) s = .next (s.finish s.pending))
    ∧ (∀ (port : Fin 8), exec (.csi2LaneSyncError port) s = .next (s.finish s.pending))
    ∧ (∀ (port : Fin 2) (up : Bool) (rate : Fin 4), exec (.ethLinkChange port up rate) s = .next (s.finish s.pending))
    ∧ (∀ (port : Fin 2) (fr : EthFrame), exec (.ethFrameReceive port fr) s = .next (s.finish s.pending))
    ∧ (∀ (st : Fin 96), exec (.packetDeclaredLost st) s = .next (s.finish s.pending))
    ∧ (∀ (st : Fin 96) (irap isRef : Bool), exec (.bpDecisionAtVclHeader st irap isRef) s = .next (s.finish s.pending))
    ∧ (∀ (st : Fin 96) (e : Desc64), exec (.pushAu st e) s = .next (s.finish s.pending))
    ∧ (∀ (st : Fin 96) (ok : Bool) (data : Blob), exec (.pushAuReadDone st ok data) s = .next (s.finish s.pending))
    ∧ (∀ (st : Fin 64) (info : PicInfo), exec (.pictureStart st info) s = .next (s.finish s.pending))
    ∧ (∀ (d : Fin 4) (ns : BitVec 32) (rows : List RowData), exec (.blockRowReconstructed d ns rows) s = .next (s.finish s.pending))
    ∧ (∀ (d : Fin 4), exec (.rowLimitExpiry d) s = .next (s.finish s.pending))
    ∧ (∀ (st : Fin 64), exec (.pictureBudgetExpiry st) s = .next (s.finish s.pending))
    ∧ (∀ (st : Fin 64), exec (.dualRowCrcCompare st) s = .next (s.finish s.pending))
    ∧ (∀ (st : Fin 64), exec (.checkerLag st) s = .next (s.finish s.pending))
    ∧ (∀ (st : Fin 96) (typ : BitVec 8), exec (.snippetTriggerEvent st typ) s = .next (s.finish s.pending))
    ∧ (∀ (n : Fin 16), exec (.encSourcePicture n) s = .next (s.finish s.pending))
    ∧ (∀ (n : Fin 16), exec (.encRowStart n) s = .next (s.finish s.pending))
    ∧ (∀ (n : Fin 16) (data : Blob), exec (.encSliceCoded n data) s = .next (s.finish s.pending))
    ∧ (∀ (n : Fin 16), exec (.postWindowExpiry n) s = .next (s.finish s.pending))
    ∧ (∀ (n : Fin 16), exec (.sourceLost n) s = .next (s.finish s.pending))
    ∧ (∀ (st : Fin 96), exec (.frontEndFrameStart st) s = .next (s.finish s.pending))
    ∧ (∀ (fe : Fin 4), exec (.bandStart fe) s = .next (s.finish s.pending))
    ∧ (∀ (fe : Fin 4), exec (.bandDone fe) s = .next (s.finish s.pending))
    ∧ (∀ (fe : Fin 4), exec (.bandLimitExpiry fe) s = .next (s.finish s.pending))
    ∧ (∀ (fe : Fin 4) (agree : Bool), exec (.bandCheckCompare fe agree) s = .next (s.finish s.pending))
    ∧ (∀ (core : Fin 8) (pair : Fin 2) (d : Desc128) (facts : LayerFacts), exec (.tileDescriptorWrite core pair d facts) s = .next (s.finish s.pending))
    ∧ (∀ (ready : List (BitVec 16)), exec (.escapementSlotStart ready) s = .next (s.finish s.pending))
    ∧ (∀ (core : Fin 8), exec (.tileIssue core) s = .next (s.finish s.pending))
    ∧ (exec .tileRejectResponse s = .next (s.finish s.pending))
    ∧ (∀ (core : Fin 8), exec (.tileWaitsMet core) s = .next (s.finish s.pending))
    ∧ (∀ (core : Fin 8) (b : Fin 2), exec (.weightLoadDone core b) s = .next (s.finish s.pending))
    ∧ (∀ (core : Fin 8) (stall : BitVec 32), exec (.tileBeatsDone core stall) s = .next (s.finish s.pending))
    ∧ (∀ (core : Fin 8) (arr : Fin 4) (row col : Fin 8), exec (.wavefrontMismatch core arr row col) s = .next (s.finish s.pending))
    ∧ (∀ (core : Fin 8) (phase : Fin 5), exec (.sequencerParityError core phase) s = .next (s.finish s.pending))
    ∧ (∀ (core : Fin 8) (outs : List OutRec), exec (.epilogueDone core outs) s = .next (s.finish s.pending))
    ∧ (∀ (core : Fin 8), exec (.tileClose core) s = .next (s.finish s.pending))
    ∧ (∀ (core : Fin 8) (fwd : Bool), exec (.haloWrite core fwd) s = .next (s.finish s.pending))
    ∧ (∀ (core : Fin 8), exec (.tileWatchdogExpiry core) s = .next (s.finish s.pending))
    ∧ (∀ (p : Fin 16), exec (.stepStart p) s = .next (s.finish s.pending))
    ∧ (∀ (p : Fin 16) (num : Nat) (ext : List Nat) (fits : Bool) (cut : JobCut) (sigs : List (Nat × Nat)), exec (.jobPlan p num ext fits cut sigs) s = .next (s.finish s.pending))
    ∧ (∀ (st : Fin 96), exec (.trackerFrame st) s = .next (s.finish s.pending))
    ∧ (∀ (st : Fin 96) (agree : Bool), exec (.trackerCompare st agree) s = .next (s.finish s.pending))
    ∧ (∀ (st : Fin 96), exec (.trackerStageLimit st) s = .next (s.finish s.pending))
    ∧ (∀ (port : Fin 18), exec (.recordStage port) s = .next (s.finish s.pending))
    ∧ (exec .collectorTurn s = .next (s.finish s.pending))
    ∧ (∀ (st : Fin 96) (agree : Bool), exec (.frameRelease st agree) s = .next (s.finish s.pending))
    ∧ (∀ (st : Fin 96), exec (.frameCloseTimeout st) s = .next (s.finish s.pending))
    ∧ (∀ (q : Fin 16384), exec (.ringStallTimeout q) s = .next (s.finish s.pending))
    ∧ (∀ (w : Fin 4096) (ok : Bool) (data : Blob), exec (.watchCopyDone w ok data) s = .next (s.finish s.pending))
    ∧ (∀ (tag : Fin 16) (holder : BitVec 8) (pairs : List (Fin 256 × BitVec 16)), exec (.reservation tag holder pairs) s = .next (s.finish s.pending))
    ∧ (exec .reservationGrant s = .next (s.finish s.pending))
    ∧ (exec .reservationAged s = .next (s.finish s.pending))
    ∧ (∀ (flips : List (Nat × BitVec 72)) (q : MemReq), exec (.memoryAccess flips q) s = .next (s.finish s.pending))
    ∧ (∀ (holder index : BitVec 8), exec (.dmaStarve holder index) s = .next (s.finish s.pending))
    ∧ (∀ (ch : Fin 4) (again : Bool) (qs : List MemReq), exec (.alertN ch again qs) s = .next (s.finish s.pending))
    ∧ (∀ (ch : Fin 4), exec (.ddrRefresh ch) s = .next (s.finish s.pending))
    ∧ (∀ (ch : Fin 4) (rank : Fin 2), exec (.selfRefreshEntry ch rank) s = .next (s.finish s.pending))
    ∧ (∀ (ch : Fin 4) (rank : Fin 2), exec (.zqCalibration ch rank) s = .next (s.finish s.pending))
    ∧ (exec .scrubPassDone s = .next (s.finish s.pending))
    ∧ (∀ (pair : Fin 4), exec (.controlPairMismatch pair) s = .next (s.finish s.pending))
    ∧ (∀ (pair : Fin 3), exec (.heartbeatMissing pair) s = .next (s.finish s.pending))
    ∧ (exec .waitAudit s = .next (s.finish s.pending))
    ∧ (∀ (r : Fin 41) (ok : Bool), exec (.selfTestChunk r ok) s = .next (s.finish s.pending))
    ∧ (∀ (r : Fin 41), exec (.testOverdue r) s = .next (s.finish s.pending))
    ∧ (∀ (p : Fin 16) (vfs : Option (Fin 16)), exec (.partitionProcessingStop p vfs) s = .next (s.finish s.pending))
    ∧ (exec .perstNAssert s = .next (s.finish s.pending))
    ∧ (∀ (linkDown : Bool), exec (.hotReset linkDown) s = .next (s.finish s.pending))
    ∧ (exec .pfFlr s = .next (s.finish s.pending))
    ∧ (∀ (f : Fin 16), exec (.vfFlr f) s = .next (s.finish s.pending))
    ∧ (∀ (t : StartFacts) (fault : Option (BitVec 8)), exec (.restart t fault) s = .next (s.finish s.pending))
    ∧ (∀ (f : Fin 16), exec (.longCommandEnd f) s = .next (s.finish s.pending))
    ∧ (∀ (p : Fin 16) (e : Desc64), exec (.job p e) s = .next (s.finish s.pending))
    ∧ (∀ (st : Fin 96) (e : Desc64), exec (.roiListFetch st e) s = .next (s.finish s.pending))
    ∧ (∀ (q : Fin 16384), exec (.submissionFetchError q) s = .next (s.finish s.pending))
    ∧ (∀ (port : Fin 8) (ulps hs deskew : Bool), exec (.ulpsEntryExit port ulps hs deskew) s = .next (s.finish s.pending))

/-- While the PF answers and no burn runs: a request without confirm 0x5EC0 reads BAD_CONFIRM; one outside READY or with class S active, WRONG_STATE; one while CAL_COMMIT runs, BUSY; REVOKE_SLOT of a slot that is not programmed, or not below the slot of the image in force, NOT_ALLOWED; each without a burn. Any other leaves SEC_FUSE_STATUS at burning and the burn under way. The fuses themselves do not change. (derived; from 17_security.md, R400, Tables 17.1, 17.2) -/
def Obligations.FuseRequestsAreCheckedInOrder : Prop :=
  ∀ (s : State) (slot : Fin 4) (confirm : BitVec 16), s.fnLive 0 = true → s.sec.burn = none →
    (∀ c op, ((c = .revokeSlot slot confirm ∧ op = 1) ∨ (c = .advanceRollback confirm ∧ op = 2) ∨ (c = .disableJtag confirm ∧ op = 3)) →
      ∃ t, exec c s = .next t ∧ s.sameMem t ∧ s.sameOutside t ∧ s.sameFuses t ∧ s.sameRegs t (fun a => decide (a = Reg.secFuseStatus)) ∧
        (if confirm ≠ 0x5EC0 then t.rd Reg.secFuseStatus = 3 + 16 * 1 ∧ t.sec.burn = none
         else if s.devState ≠ 5 ∨ s.sActive = true then t.rd Reg.secFuseStatus = 3 + 16 * 2 ∧ t.sec.burn = none
         else if s.calBurning = true then t.rd Reg.secFuseStatus = 3 + 16 * 3 ∧ t.sec.burn = none
         else if op = 1 ∧ ((s.fld Reg.secStatus 4 4).testBit slot = false ∨ s.imageSlot ≤ slot.val) then t.rd Reg.secFuseStatus = 3 + 16 * 4 ∧ t.sec.burn = none
         else t.rd Reg.secFuseStatus = 1 ∧ ∃ arg, t.sec.burn = some (op, arg)))

/-- With VDD_AON up and a REVOKE_SLOT burn running, FUSE_BURN_COMPLETE with a read-back that compares leaves the slot revoked, the other slots as they were, no burn running, and SEC_FUSE_STATUS at done with OK. (derived; from 17_security.md, R399, R400) -/
def Obligations.BurnOfASlotRevokesIt : Prop :=
  ∀ (s : State) (slot : Fin 4), s.pins.aonUp = true → s.sec.burn = some (1, slot.val) →
    ∃ t, exec (.fuseBurnComplete true) s = .next t ∧ t.sec.burn = none ∧ t.rd Reg.secFuseStatus = 2 ∧ s.sameMem t
      ∧ (∀ k : Fin 4, t.sec.revoked.getLsbD k = (s.sec.revoked.getLsbD k || decide (k = slot)))
      ∧ t.sec.burnt = s.sec.burnt ∧ t.sec.jtagBurnt = s.sec.jtagBurnt

/-- With VDD_AON up: JTAG_CHALLENGE_EXPIRY drops a challenge 60 s old or older and keeps a younger one. While the PF answers and the TAP is UNLOCKED, a write of 1 to SEC_JTAG_RELOCK leaves it LOCKED. Nothing else changes. (derived; from 17_security.md, R407, R408) -/
def Obligations.ChallengeExpiresAndTapRelocks : Prop :=
  ∀ (s : State), s.pins.aonUp = true →
    (∀ ch tb, s.sec.challenge = some (ch, tb) → ∃ t, exec .jtagChallengeExpiry s = .next t ∧ s.sameMem t ∧ s.sameRegs t (fun _ => false)
        ∧ t.sec.challenge = (if tb + 60000000000 ≤ s.now then none else some (ch, tb)))
    ∧ (∀ v : Word, s.fnLive 0 = true → s.jtag = 1 → v.getLsbD 0 = true → ∃ t, exec (.secJtagRelockWrite v) s = .next t ∧ t.jtag = 0 ∧ s.sameMem t
        ∧ s.sameRegs t (fun a => decide (a = Reg.secStatus)))

/-- While the PF answers, SEC_CAL_SHADOW[k] reads the written value without the bits that Table 16.4 does not give it. No other register and no memory changes. (derived; from 16_start_and_restart.md, R384, Table 16.4) -/
def Obligations.CalibrationShadowTakesItsFormat : Prop :=
  ∀ (s : State) (k : Fin 512) (v : Word), s.fnLive 0 = true →
    ∃ t, exec (.secCalShadowWrite k v) s = .next t ∧ t.rd (Reg.secCalShadow k) = v.toNat &&& calMask k ∧ s.sameMem t ∧ s.sameOutside t
      ∧ s.sameRegs t (fun a => decide (a = Reg.secCalShadow k))

/-- A PF write of ERR_FIRST_STATUS with valid 1, with no event arriving, clears valid, more and tie; the capture registers and every register of Table 19.1 stay. A write of 1 to bits of a sticky register clears those bits and leaves the capture. The capture is armed again: an event on its way that arrives in the same handshake is captured. (stated; from R439) -/
def Obligations.FirstStatusWriteReArmsTheCapture : Prop :=
  ∀ (s : State), s.fnLive 0 = true →
    (∀ v : Word, v.getLsbD 0 = true → ∃ t, exec (.errFirstStatusWrite v []) s = .next t ∧ t.fld Reg.errFirstStatus 0 3 = 0 ∧ s.sameMem t ∧ s.sameOutside t
        ∧ t.err = s.err ∧ s.sameRegs t (fun a => decide (a = Reg.errFirstStatus)))
    ∧ (∀ (idx : Fin 19) (unit : Fin 16) (mask : Word), (errUnits idx).contains unit.val = true → s.unitsAsleep (errReg idx unit) = false →
        ∃ t, exec (.stickyBitClear idx unit mask []) s = .next t ∧ t.rd (errReg idx unit) = s.rd (errReg idx unit) &&& (0xFFFFFFFF - mask.toNat)
          ∧ t.rd Reg.errFirstStatus = s.rd Reg.errFirstStatus ∧ s.sameMem t ∧ s.sameOutside t ∧ s.sameRegs t (fun a => decide (a = errReg idx unit)))
    ∧ (∀ (v : Word) (e : ErrEvent), v.getLsbD 0 = true → s.err.pend = [e] → e.idx < 19 → e.tb < 2 ^ 64 → ∃ t, exec (.errFirstStatusWrite v [0]) s = .next t
        ∧ t.rd Reg.errFirstStatus = 1 ∧ t.rd Reg.errFirstSrc = e.src % 2 ^ 32 ∧ t.rd64 Reg.errFirstTb = e.tb)

/-- For a register that is awake and with no other event on its way: a clear of a bit together with a new event of the same bit leaves the bit 1, and the event, which is on its way, is counted when it arrives. A write of 1 to ERR_FIRST_STATUS.valid in the handshake in which an event arrives takes effect first, and the event is counted and captured. (stated; from R440) -/
def Obligations.StickyBitOutlivesItsClear : Prop :=
  ∀ (s : State), s.fnLive 0 = true → s.pins.aonUp = true →
    (∀ (idx : Fin 19) (unit : Fin 16) (mask : Word) (e : EventFacts), s.err.pend = [] → unit.val = errCopy idx e.unit.toNat →
      (errUnits idx).contains unit.val = true → s.unitsAsleep (errReg idx unit) = false →
      ∃ t, exec (.stickyBitClear idx unit mask [e]) s = .next t ∧ t.bitAt (errReg idx unit) e.bit = true ∧ s.sameMem t
        ∧ t.err.pend = [{ eventOf e idx with tb := s.now }]
        ∧ ∃ u, exec (.errorEvent [0]) t = .next u ∧ u.err.pend = [] ∧ u.bitAt (errReg idx unit) e.bit = true
          ∧ u.rd (Reg.errEventCnt idx) = min (s.rd (Reg.errEventCnt idx) + 1) 0xFFFFFFFF)
    ∧ (∀ (v : Word) (e : ErrEvent), v.getLsbD 0 = true → s.err.pend = [e] → e.idx < 19 → e.addr < 2 ^ 64 → e.tb < 2 ^ 64 →
      ∃ t, exec (.errFirstStatusWrite v [0]) s = .next t ∧ t.err.pend = [] ∧ t.rd Reg.errFirstStatus = 1 ∧ t.rd Reg.errFirstSrc = e.src % 2 ^ 32
        ∧ t.rd64 Reg.errFirstAddr = e.addr ∧ t.rd64 Reg.errFirstTb = e.tb ∧ t.rd (Reg.errEventCnt e.idx) = min (s.rd (Reg.errEventCnt e.idx) + 1) 0xFFFFFFFF)

/-- With VDD_AON up and one event on its way: its arrival adds 1 to the count of its register and to the total and stands in ERR_LAST; while valid reads 0 it is captured with its source, address and TB; while valid reads 1 the capture stays and more is set. (derived; from 19_error_record.md, R436, R437, Table 19.5) -/
def Obligations.FirstEventIsCapturedOnce : Prop :=
  ∀ (s : State) (e : ErrEvent), s.pins.aonUp = true → s.err.pend = [e] → e.idx < 19 → e.addr < 2 ^ 64 → e.tb < 2 ^ 64 →
    ∃ t, exec (.errorEvent [0]) s = .next t ∧ t.err.pend = [] ∧ s.sameMem t ∧ s.sameOutside t
      ∧ t.rd (Reg.errEventCnt e.idx) = min (s.rd (Reg.errEventCnt e.idx) + 1) 0xFFFFFFFF
      ∧ t.rd Reg.errLastSrc = e.src % 2 ^ 32 ∧ t.rd64 Reg.errLastTb = e.tb
      ∧ (if s.bitAt Reg.errFirstStatus 0 = true then t.rd Reg.errFirstSrc = s.rd Reg.errFirstSrc ∧ t.rd64 Reg.errFirstTb = s.rd64 Reg.errFirstTb ∧ t.bitAt Reg.errFirstStatus 1 = true
         else t.rd Reg.errFirstSrc = e.src % 2 ^ 32 ∧ t.rd64 Reg.errFirstAddr = e.addr ∧ t.rd64 Reg.errFirstTb = e.tb ∧ t.rd Reg.errFirstStatus = 1)

/-- For every state whose units answer (VDD_AON up for the always-on domain; out of reset for the others; for a register write a function that answers, and the first READY reached for the blocks that sleep before it), and for all operands, each of these commands answers the next state that its rule gives, in the model's operation for that rule, with the copies of every command's end: TELLTALE_READ, FUSEE_LOOP_TICK, AVS_FRAME_FAILURE, AVS_RETRY, AVS_STATUS_FAULT, RAIL_DEVIATION, RAIL_LOW, AVS_FROZEN_STATUS_RETRY, POWER_DOMAIN_REQUEST, POWER_DOMAIN_TRANSITION_DONE, REEFING_EVALUATION, PWT_POWER_CAP_WRITE, TEMPERATURE_SENSOR_READ, SENSOR_FAIL, THERMAL_SHUTDOWN. (derived; from 02_timing_and_power.md) -/
def Obligations.PowerCommandsHaveTheirEffect : Prop :=
  ∀ (s : State),
    (∀ (rs : List (BitVec 16 × BitVec 16)), s.pins.aonUp = true → exec (.telltaleRead rs) s = .next ((s.telltaleRead (rs.map (fun r => (r.1.toNat, r.2.toNat)))).finish s.pending))
    ∧ (∀ (beats : BitVec 16), s.pins.aonUp = true → exec (.fuseeLoopTick beats) s = .next ((s.fuseeTick beats.toNat).finish s.pending))
    ∧ (∀ (rail : Fin 2), s.pins.aonUp = true → exec (.avsFrameFailure rail) s = .next ((s.avsFailure rail).finish s.pending))
    ∧ (∀ (rail : Fin 2) (ok : Bool), s.pins.aonUp = true → exec (.avsRetry rail ok) s = .next ((s.avsRetry rail ok).finish s.pending))
    ∧ (∀ (rail : Fin 2), s.pins.aonUp = true → exec (.avsStatusFault rail) s = .next ((s.avsStatusFault rail).finish s.pending))
    ∧ (∀ (rail : Fin 2) (mv : BitVec 16), s.pins.aonUp = true → exec (.railDeviation rail mv) s = .next ((s.railDeviation rail mv.toNat).finish s.pending))
    ∧ (∀ (rail : Fin 2) (mv : BitVec 16), s.pins.aonUp = true → exec (.railLow rail mv) s = .next ((s.railLow rail mv.toNat).finish s.pending))
    ∧ (∀ (rail : Fin 2) (ok : Bool), s.pins.aonUp = true → exec (.avsFrozenStatusRetry rail ok) s = .next ((s.avsStatusRetry rail ok).finish s.pending))
    ∧ (∀ (domain : Fin 253) (state : Fin 3), s.live = true → exec (.powerDomainRequest domain state) s = .next ((s.pdRequest domain state).finish s.pending))
    ∧ (∀ (domain : Fin 253), s.pins.aonUp = true → exec (.powerDomainTransitionDone domain) s = .next ((s.pdDone domain).finish s.pending))
    ∧ (∀ (mvA maA mvL maL : BitVec 32), s.pins.aonUp = true → exec (.reefingEvaluation mvA maA mvL maL) s = .next ((s.reefEvaluate mvA.toNat maA.toNat mvL.toNat maL.toNat).finish s.pending))
    ∧ (∀ (v : Word), s.fnLive 0 = true → exec (.pwtPowerCapWrite v) s = .next ((s.writeCap v.toNat).finish s.pending))
    ∧ (∀ (ts : List (BitVec 16)), s.pins.aonUp = true → exec (.temperatureSensorRead ts) s = .next ((s.tempRead (ts.map (fun t => t.toNat))).finish s.pending))
    ∧ (∀ (k : Fin 12), s.pins.aonUp = true → exec (.sensorFail k) s = .next ((s.sensorFail k).finish s.pending))
    ∧ (s.pins.aonUp = true → exec .thermalShutdown s = .next ((s.thermalShutdown).finish s.pending))

/-- For every state whose units answer (VDD_AON up for the always-on domain; out of reset for the others; for a register write a function that answers, and the first READY reached for the blocks that sleep before it), and for all operands, each of these commands answers the next state that its rule gives, in the model's operation for that rule, with the copies of every command's end: TB_COPY_DISAGREE, TB_NO_MAJORITY, REFCLK_LOSS, TB_ADJ_RATE_WRITE, TB_ADJ_OFFSET_WRITE, TB_SET_WRITE, TB_SLEW_COMPLETE, TIME_PPS_EDGE, ULPS_ENTRY_EXIT. (derived; from 02_timing_and_power.md, 03_stream_ingress.md) -/
def Obligations.TimeAndLaneCommandsHaveTheirEffect : Prop :=
  ∀ (s : State),
    (∀ (copy : Fin 3), s.pins.aonUp = true → exec (.tbCopyDisagree copy) s = .next ((s.tbCopyDisagree copy).finish s.pending))
    ∧ (s.pins.aonUp = true → exec .tbNoMajority s = .next ((s.tbNoMajority).finish s.pending))
    ∧ (s.pins.aonUp = true → exec .refclkLoss s = .next ((s.refclkLoss).finish s.pending))
    ∧ (∀ (v : Word), s.fnLive 0 = true → exec (.tbAdjRateWrite v) s = .next ((s.writeAdjRate v.toNat).finish s.pending))
    ∧ (∀ (v : Word), s.fnLive 0 = true → exec (.tbAdjOffsetWrite v) s = .next ((s.writeAdjOffset v.toNat).finish s.pending))
    ∧ (∀ (v : BitVec 64), s.fnLive 0 = true → exec (.tbSetWrite v) s = .next ((s.writeTbSet v.toNat).finish s.pending))
    ∧ (s.pins.aonUp = true → exec .tbSlewComplete s = .next ((s.slewComplete).finish s.pending))
    ∧ (s.pins.aonUp = true → exec .timePpsEdge s = .next ((s.timePps).finish s.pending))
    ∧ (∀ (port : Fin 8) (ulps hs deskew : Bool), s.live = true → exec (.ulpsEntryExit port ulps hs deskew) s = .next ((s.csiUlps port ulps hs deskew).finish s.pending))

/-- For every state whose units answer (VDD_AON up for the always-on domain; out of reset for the others; for a register write a function that answers, and the first READY reached for the blocks that sleep before it), and for all operands, each of these commands answers the next state that its rule gives, in the model's operation for that rule, with the copies of every command's end: STREAM_START, STREAM_STOP, STREAM_RETURN_IDLE, CSI2_FRAME_START, CSI2_LINE_PACKET, CSI2_EMBEDDED_PACKET, CSI2_FRAME_END, CSI2_HEADER_UNCORRECTABLE, CSI2_LANE_SYNC_ERROR, ETH_LINK_CHANGE, ETH_FRAME_RECEIVE, PACKET_DECLARED_LOST, BP_DECISION_AT_VCL_HEADER, ING_ETH_CLASS_WRITE, PUSH_AU, PUSH_AU_READ_DONE. (derived; from 03_stream_ingress.md) -/
def Obligations.IngressCommandsHaveTheirEffect : Prop :=
  ∀ (s : State),
    (∀ (f : Fin 16) (tag : BitVec 8), exec (.streamStart f tag) s = .next ((s.startCmd f tag.toNat).finish s.pending))
    ∧ (∀ (f : Fin 16) (tag : BitVec 8), exec (.streamStop f tag) s = .next ((s.stopCmd f tag.toNat).finish s.pending))
    ∧ (∀ (st : Fin 96), s.live = true → exec (.streamReturnIdle st) s = .next ((s.returnIdle st).finish s.pending))
    ∧ (∀ (port : Fin 8) (vc : Fin 16) (fn : BitVec 16) (fixed dup : Bool), s.live = true → exec (.csi2FrameStart port vc fn fixed dup) s = .next (((s.csiFrameStart port vc fn.toNat fixed dup).afterClose s port vc).finish s.pending))
    ∧ (∀ (port : Fin 8) (vc : Fin 16) (dt : BitVec 6) (wc : BitVec 16) (crcOk fixed : Bool) (data : Blob) (dup : Bool), s.live = true → exec (.csi2LinePacket port vc dt wc crcOk fixed data dup) s = .next (((s.csiLinePacket port vc dt.toNat wc.toNat crcOk fixed data.val dup).afterLine s port vc).finish s.pending))
    ∧ (∀ (port : Fin 8) (vc : Fin 16) (crcOk fixed : Bool) (data : Blob), s.live = true → exec (.csi2EmbeddedPacket port vc crcOk fixed data) s = .next ((s.csiEmbedded port vc crcOk fixed data).finish s.pending))
    ∧ (∀ (port : Fin 8) (vc : Fin 16) (fixed : Bool), s.live = true → exec (.csi2FrameEnd port vc fixed) s = .next (((s.csiFrameEnd port vc fixed).afterClose s port vc).finish s.pending))
    ∧ (∀ (port : Fin 8), s.live = true → exec (.csi2HeaderUncorrectable port) s = .next ((s.csiHeaderBad port).finish s.pending))
    ∧ (∀ (port : Fin 8), s.live = true → exec (.csi2LaneSyncError port) s = .next ((s.csiSyncErr port).finish s.pending))
    ∧ (∀ (port : Fin 2) (up : Bool) (rate : Fin 4), s.live = true → exec (.ethLinkChange port up rate) s = .next ((s.ethLink port up rate).finish s.pending))
    ∧ (∀ (port : Fin 2) (fr : EthFrame), s.live = true → exec (.ethFrameReceive port fr) s = .next ((s.ethFrame port fr).finish s.pending))
    ∧ (∀ (st : Fin 96), s.live = true → exec (.packetDeclaredLost st) s = .next ((s.packetLost st).finish s.pending))
    ∧ (∀ (st : Fin 96) (irap isRef : Bool), s.live = true → exec (.bpDecisionAtVclHeader st irap isRef) s = .next ((s.bpDecision st irap isRef).finish s.pending))
    ∧ (∀ (n : Fin 128) (word : Fin 16) (v : Word), s.fnLive 0 = true → s.sec.started = true → exec (.ingEthClassWrite n word v) s = .next ((s.ethClassWrite n word v.toNat).finish s.pending))
    ∧ (∀ (st : Fin 96) (e : Desc64), s.live = true → exec (.pushAu st e) s = .next ((s.pushAu st e).finish s.pending))
    ∧ (∀ (st : Fin 96) (ok : Bool) (data : Blob), s.live = true → exec (.pushAuReadDone st ok data) s = .next ((s.pushReadDone st ok data.val).finish s.pending))

/-- For every state whose units answer (VDD_AON up for the always-on domain; out of reset for the others; for a register write a function that answers, and the first READY reached for the blocks that sleep before it), and for all operands, each of these commands answers the next state that its rule gives, in the model's operation for that rule, with the copies of every command's end: PICTURE_START, BLOCK_ROW_RECONSTRUCTED, ROW_LIMIT_EXPIRY, PICTURE_BUDGET_EXPIRY, DUAL_ROW_CRC_COMPARE, CHECKER_LAG, ENC_SESS_DESC_WRITE, START, STOP, TRIGGER, SNIPPET_TRIGGER_EVENT, ENC_SOURCE_PICTURE, ENC_ROW_START, ENC_SLICE_CODED, POST_WINDOW_EXPIRY, SOURCE_LOST. (derived; from 04_bitstream_engines.md) -/
def Obligations.DecodeAndEncodeCommandsHaveTheirEffect : Prop :=
  ∀ (s : State),
    (∀ (st : Fin 64) (info : PicInfo), s.live = true → exec (.pictureStart st info) s = .next ((s.pictureStart st info).finish s.pending))
    ∧ (∀ (d : Fin 4) (ns : BitVec 32) (rows : List RowData), s.live = true → exec (.blockRowReconstructed d ns rows) s = .next ((s.blockRow d ns.toNat rows).finish s.pending))
    ∧ (∀ (d : Fin 4), s.live = true → exec (.rowLimitExpiry d) s = .next ((s.rowLimit d).finish s.pending))
    ∧ (∀ (st : Fin 64), s.live = true → exec (.pictureBudgetExpiry st) s = .next ((s.budgetExpiry st).finish s.pending))
    ∧ (∀ (st : Fin 64), s.live = true → exec (.dualRowCrcCompare st) s = .next ((s.dualCompare st).finish s.pending))
    ∧ (∀ (st : Fin 64), s.live = true → exec (.checkerLag st) s = .next ((s.checkerLag st).finish s.pending))
    ∧ (∀ (f n word : Fin 16) (v : Word), s.fnLive f = true → s.sec.started = true → exec (.encSessDescWrite f n word v) s = .next ((s.encDescWrite f n word v.toNat).finish s.pending))
    ∧ (∀ (f n : Fin 16), s.fnLive f = true → s.sec.started = true → exec (.start f n) s = .next ((s.encStart n).finish s.pending))
    ∧ (∀ (f n : Fin 16), s.fnLive f = true → s.sec.started = true → exec (.stop f n) s = .next ((s.encStop n).finish s.pending))
    ∧ (∀ (f n : Fin 16), s.fnLive f = true → s.sec.started = true → exec (.trigger f n) s = .next ((s.encTrigger n).finish s.pending))
    ∧ (∀ (st : Fin 96) (typ : BitVec 8), s.live = true → exec (.snippetTriggerEvent st typ) s = .next ((s.encEventTrigger st typ.toNat).finish s.pending))
    ∧ (∀ (n : Fin 16), s.live = true → exec (.encSourcePicture n) s = .next ((s.encSourcePicture n).finish s.pending))
    ∧ (∀ (n : Fin 16), s.live = true → exec (.encRowStart n) s = .next ((s.encRowStart n).finish s.pending))
    ∧ (∀ (n : Fin 16) (data : Blob), s.live = true → exec (.encSliceCoded n data) s = .next ((s.encSliceCoded n data).finish s.pending))
    ∧ (∀ (n : Fin 16), s.live = true → exec (.postWindowExpiry n) s = .next ((s.postWindow n).finish s.pending))
    ∧ (∀ (n : Fin 16), s.live = true → exec (.sourceLost n) s = .next ((s.sourceLost n).finish s.pending))

/-- For every state whose units answer (VDD_AON up for the always-on domain; out of reset for the others; for a register write a function that answers, and the first READY reached for the blocks that sleep before it), and for all operands, each of these commands answers the next state that its rule gives, in the model's operation for that rule, with the copies of every command's end: VIEW_DESCRIPTOR_WRITE, FRONT_END_FRAME_START, BAND_START, BAND_DONE, BAND_LIMIT_EXPIRY, BAND_CHECK_COMPARE, TRACKER_FRAME, TRACKER_COMPARE, TRACKER_STAGE_LIMIT, TRACKER_DESC_WRITE. (derived; from 05_pixel_front_end.md, 10_tracking_and_results.md) -/
def Obligations.FrontEndAndTrackerCommandsHaveTheirEffect : Prop :=
  ∀ (s : State),
    (∀ (st : Fin 96) (view : Fin 4) (word : Fin 16) (v : Word), s.fnLive 0 = true → s.sec.started = true → exec (.viewDescriptorWrite st view word v) s = .next ((s.viewWrite st view word v.toNat).finish s.pending))
    ∧ (∀ (st : Fin 96), s.live = true → exec (.frontEndFrameStart st) s = .next ((s.frameStart st).finish s.pending))
    ∧ (∀ (fe : Fin 4), s.live = true → exec (.bandStart fe) s = .next ((s.bandStart fe).finish s.pending))
    ∧ (∀ (fe : Fin 4), s.live = true → exec (.bandDone fe) s = .next ((s.bandDone fe).finish s.pending))
    ∧ (∀ (fe : Fin 4), s.live = true → exec (.bandLimitExpiry fe) s = .next ((s.bandLimit fe).finish s.pending))
    ∧ (∀ (fe : Fin 4) (agree : Bool), s.live = true → exec (.bandCheckCompare fe agree) s = .next ((s.bandCompare fe agree).finish s.pending))
    ∧ (∀ (st : Fin 96), s.live = true → exec (.trackerFrame st) s = .next ((s.trackerFrame st).finish s.pending))
    ∧ (∀ (st : Fin 96) (agree : Bool), s.live = true → exec (.trackerCompare st agree) s = .next ((s.trackerCompare st agree).finish s.pending))
    ∧ (∀ (st : Fin 96), s.live = true → exec (.trackerStageLimit st) s = .next ((s.trackerLimit st).finish s.pending))
    ∧ (∀ (st : Fin 96) (word : Fin 16) (v : Word), s.fnLive 0 = true → s.sec.started = true → exec (.trackerDescWrite st word v) s = .next ((s.trkDescWrite st word v.toNat).finish s.pending))

/-- For every state whose units answer (VDD_AON up for the always-on domain; out of reset for the others; for a register write a function that answers, and the first READY reached for the blocks that sleep before it), and for all operands, each of these commands answers the next state that its rule gives, in the model's operation for that rule, with the copies of every command's end: TILE_DESCRIPTOR_WRITE, ESCAPEMENT_SLOT_START, TILE_ISSUE, TILE_REJECT_RESPONSE, TILE_WAITS_MET, WEIGHT_LOAD_DONE, TILE_BEATS_DONE, WAVEFRONT_MISMATCH, SEQUENCER_PARITY_ERROR, EPILOGUE_DONE, TILE_CLOSE, HALO_WRITE, TILE_WATCHDOG_EXPIRY, STEP_START, JOB_PLAN. (derived; from 06_tensor_cores.md, 07_numerics.md, 08_operator_mapping.md, 09_tiles_and_scheduling.md) -/
def Obligations.TileAndPlannerCommandsHaveTheirEffect : Prop :=
  ∀ (s : State),
    (∀ (core : Fin 8) (pair : Fin 2) (d : Desc128) (facts : LayerFacts), s.live = true → exec (.tileDescriptorWrite core pair d facts) s = .next ((s.writeTile core pair d facts).finish s.pending))
    ∧ (∀ (ready : List (BitVec 16)), s.live = true → exec (.escapementSlotStart ready) s = .next ((s.escapement (ready.map (fun r => r.toNat))).finish s.pending))
    ∧ (∀ (core : Fin 8), s.live = true → exec (.tileIssue core) s = .next ((s.tileIssue core).finish s.pending))
    ∧ (s.live = true → exec .tileRejectResponse s = .next ((s.rejectResponse).finish s.pending))
    ∧ (∀ (core : Fin 8), s.live = true → exec (.tileWaitsMet core) s = .next ((s.waitsMet core).finish s.pending))
    ∧ (∀ (core : Fin 8) (b : Fin 2), s.live = true → exec (.weightLoadDone core b) s = .next ((s.loadDone core b).finish s.pending))
    ∧ (∀ (core : Fin 8) (stall : BitVec 32), s.live = true → exec (.tileBeatsDone core stall) s = .next ((s.beatsDone core stall.toNat).finish s.pending))
    ∧ (∀ (core : Fin 8) (arr : Fin 4) (row col : Fin 8), s.live = true → exec (.wavefrontMismatch core arr row col) s = .next ((s.wavefront core arr row col).finish s.pending))
    ∧ (∀ (core : Fin 8) (phase : Fin 5), s.live = true → exec (.sequencerParityError core phase) s = .next ((s.seqParity core phase).finish s.pending))
    ∧ (∀ (core : Fin 8) (outs : List OutRec), s.live = true → exec (.epilogueDone core outs) s = .next ((s.epilogueDone core outs).finish s.pending))
    ∧ (∀ (core : Fin 8), s.live = true → exec (.tileClose core) s = .next ((s.tileClose core).finish s.pending))
    ∧ (∀ (core : Fin 8) (fwd : Bool), s.live = true → exec (.haloWrite core fwd) s = .next ((s.haloWrite core fwd).finish s.pending))
    ∧ (∀ (core : Fin 8), s.live = true → exec (.tileWatchdogExpiry core) s = .next ((s.watchdog core).finish s.pending))
    ∧ (∀ (p : Fin 16), s.live = true → exec (.stepStart p) s = .next ((s.stepStart p).finish s.pending))
    ∧ (∀ (p : Fin 16) (num : Nat) (ext : List Nat) (fits : Bool) (cut : JobCut) (sigs : List (Nat × Nat)), s.live = true → exec (.jobPlan p num ext fits cut sigs) s = .next ((s.jobPlan p num ext fits cut.tiles cut.groups sigs).finish s.pending))

/-- For every state whose units answer (VDD_AON up for the always-on domain; out of reset for the others; for a register write a function that answers, and the first READY reached for the blocks that sleep before it), and for all operands, each of these commands answers the next state that its rule gives, in the model's operation for that rule, with the copies of every command's end: RECORD_STAGE, COLLECTOR_TURN, FRAME_RELEASE, FRAME_CLOSE_TIMEOUT, RING_STALL_TIMEOUT, COL_STRM_QUERY_WRITE, SIGNAL, RESET, WATCH_ARM, WATCH_COPY_DONE, QUEUE_DESCRIPTOR_WRITE, DOORBELL_WRITE. (derived; from 10_tracking_and_results.md, 11_halyard_and_pools.md) -/
def Obligations.CollectorAndHalyardCommandsHaveTheirEffect : Prop :=
  ∀ (s : State),
    (∀ (port : Fin 18), s.live = true → exec (.recordStage port) s = .next ((s.stageRecord port).finish s.pending))
    ∧ (s.live = true → exec .collectorTurn s = .next ((s.collectorTurn).finish s.pending))
    ∧ (∀ (st : Fin 96) (agree : Bool), s.live = true → exec (.frameRelease st agree) s = .next ((s.releaseTurn st agree).finish s.pending))
    ∧ (∀ (st : Fin 96), s.live = true → exec (.frameCloseTimeout st) s = .next ((s.closeTimeout st).finish s.pending))
    ∧ (∀ (q : Fin 16384), s.live = true → exec (.ringStallTimeout q) s = .next ((s.stallTimeout q).finish s.pending))
    ∧ (∀ (st : Fin 96) (v : Word), s.fnLive 0 = true → s.sec.started = true → exec (.colStrmQueryWrite st v) s = .next ((s.queryFrame st v.toNat).finish s.pending))
    ∧ (∀ (who : Option (Fin 16)) (n : BitVec 16) (amt : BitVec 32), exec (.signal who n amt) s = .next ((s.signalBy who n.toNat amt.toNat).finish s.pending))
    ∧ (∀ (f : Fin 16) (n : BitVec 16), s.fnLive f = true → s.sec.started = true → exec (.reset f n) s = .next ((s.hostReset f n.toNat).finish s.pending))
    ∧ (∀ (f : Fin 16) (w : Fin 4096) (v : Word), s.fnLive f = true → s.sec.started = true → exec (.watchArm f w v) s = .next ((s.watchArm f w v.toNat).finish s.pending))
    ∧ (∀ (w : Fin 4096) (ok : Bool) (data : Blob), s.live = true → exec (.watchCopyDone w ok data) s = .next ((s.watchCopyDone w ok data.val).finish s.pending))
    ∧ (∀ (f : Fin 16) (q : Fin 16384) (word : Fin 16) (v : Word), s.fnLive f = true → s.sec.started = true → exec (.queueDescriptorWrite f q word v) s = .next ((s.queueWrite f q word v.toNat).finish s.pending))
    ∧ (∀ (f : Fin 16) (q : Fin 16384) (v : Word), s.fnLive f = true → s.sec.started = true → exec (.doorbellWrite f q v) s = .next ((s.doorbell f q v.toNat).finish s.pending))

/-- For every state whose units answer (VDD_AON up for the always-on domain; out of reset for the others; for a register write a function that answers, and the first READY reached for the blocks that sleep before it), and for all operands, each of these commands answers the next state that its rule gives, in the model's operation for that rule, with the copies of every command's end: RESERVATION, RESERVATION_GRANT, RESERVATION_AGED, SHARE, DROP, FREE, POOL_THRESHOLD_WRITE, POOL_BUF_QUERY_WRITE, MEMORY_ACCESS, DMA_STARVE, MEM_DMA_RESUME_WRITE, ALERT_N, DDR_REFRESH, SELF_REFRESH_ENTRY, ZQ_CALIBRATION, SCRUB_START, SCRUB_ABORT, SCRUB_PASS_DONE. (derived; from 11_halyard_and_pools.md, 12_memory.md) -/
def Obligations.PoolAndMemoryCommandsHaveTheirEffect : Prop :=
  ∀ (s : State),
    (∀ (tag : Fin 16) (holder : BitVec 8) (pairs : List (Fin 256 × BitVec 16)), s.live = true → exec (.reservation tag holder pairs) s = .next ((s.reserve tag holder.toNat (pairs.map (fun p => (p.1.val, p.2.toNat)))).finish s.pending))
    ∧ (s.live = true → exec .reservationGrant s = .next ((s.reservationGrant).finish s.pending))
    ∧ (s.live = true → exec .reservationAged s = .next ((s.reservationAged).finish s.pending))
    ∧ (∀ (tag : Fin 16) (holder : BitVec 8) (h : Word) (newHolder last : BitVec 8), exec (.share tag holder h newHolder last) s = .next ((s.shareBy tag holder.toNat h.toNat newHolder.toNat last.toNat).finish s.pending))
    ∧ (∀ (tag : Fin 16) (holder : BitVec 8) (h : Word), exec (.drop tag holder h) s = .next ((s.poolBy holder.toNat (fun y => y.dropOp tag holder.toNat h.toNat)).finish s.pending))
    ∧ (∀ (tag : Fin 16) (holder : BitVec 8) (h : Word), exec (.free tag holder h) s = .next ((s.poolBy holder.toNat (fun y => y.freeOp tag holder.toNat h.toNat)).finish s.pending))
    ∧ (∀ (k : Fin 256) (v : Word), s.fnLive 0 = true → s.sec.started = true → exec (.poolThresholdWrite k v) s = .next ((s.poolThresholds k v.toNat).finish s.pending))
    ∧ (∀ (f : Fin 16) (h : Word), s.fnLive f = true → s.sec.started = true → exec (.poolBufQueryWrite f h) s = .next ((s.bufQuery f h.toNat).finish s.pending))
    ∧ (∀ (flips : List (Nat × BitVec 72)) (q : MemReq), s.live = true → exec (.memoryAccess flips q) s = .next ((s.memoryAccess flips q).finish s.pending))
    ∧ (∀ (holder index : BitVec 8), s.live = true → exec (.dmaStarve holder index) s = .next ((s.dmaStarve holder.toNat index.toNat).finish s.pending))
    ∧ (∀ (f : Fin 16) (v : Word), s.fnLive f = true → s.sec.started = true → exec (.memDmaResumeWrite f v) s = .next ((s.dmaResume f v.toNat).finish s.pending))
    ∧ (∀ (ch : Fin 4) (again : Bool) (qs : List MemReq), s.live = true → exec (.alertN ch again qs) s = .next ((s.alertN ch again qs).finish s.pending))
    ∧ (∀ (ch : Fin 4), s.live = true → exec (.ddrRefresh ch) s = .next ((s.ddrRefresh ch).finish s.pending))
    ∧ (∀ (ch : Fin 4) (rank : Fin 2), s.live = true → exec (.selfRefreshEntry ch rank) s = .next ((s.selfRefresh ch rank).finish s.pending))
    ∧ (∀ (ch : Fin 4) (rank : Fin 2), s.live = true → exec (.zqCalibration ch rank) s = .next ((s.zqCalibration ch rank).finish s.pending))
    ∧ (s.fnLive 0 = true → s.sec.started = true → exec .scrubStart s = .next ((s.scrubStart).finish s.pending))
    ∧ (∀ (done : BitVec 48), s.fnLive 0 = true → s.sec.started = true → exec (.scrubAbort done) s = .next ((s.scrubAbort done.toNat).finish s.pending))
    ∧ (s.live = true → exec .scrubPassDone s = .next ((s.scrubDone).finish s.pending))

/-- For every state whose units answer (VDD_AON up for the always-on domain; out of reset for the others; for a register write a function that answers, and the first READY reached for the blocks that sleep before it), and for all operands, each of these commands answers the next state that its rule gives, in the model's operation for that rule, with the copies of every command's end: DETECTED_FAULT, CONTROL_PAIR_MISMATCH, HEARTBEAT_MISSING, WAIT_AUDIT, SELF_TEST_CHUNK, TEST_OVERDUE, FAULT_N_TEST_WRITE, PARTITION_PROCESSING_START, PARTITION_PROCESSING_STOP. (derived; from 13_partitions_and_safety.md) -/
def Obligations.SafetyCommandsHaveTheirEffect : Prop :=
  ∀ (s : State),
    (s.pins.aonUp = true → exec .detectedFault s = .next ((s.detectedFault).finish s.pending))
    ∧ (∀ (pair : Fin 4), s.live = true → exec (.controlPairMismatch pair) s = .next ((s.controlMismatch pair).finish s.pending))
    ∧ (∀ (pair : Fin 3), s.live = true → exec (.heartbeatMissing pair) s = .next ((s.heartbeatMissing pair).finish s.pending))
    ∧ (s.live = true → exec .waitAudit s = .next ((s.waitAudit).finish s.pending))
    ∧ (∀ (r : Fin 41) (ok : Bool), s.live = true → exec (.selfTestChunk r ok) s = .next ((s.selfTestChunk r ok).finish s.pending))
    ∧ (∀ (r : Fin 41), s.live = true → exec (.testOverdue r) s = .next ((s.testOverdue r).finish s.pending))
    ∧ (∀ (v : Word), s.fnLive 0 = true → exec (.faultNTestWrite v) s = .next ((s.faultNTest v.toNat).finish s.pending))
    ∧ (∀ (p : Fin 16) (vfs : Option (Fin 16)) (ctl : Option FnControl), s.fnLive p = true → exec (.partitionProcessingStart p vfs ctl) s = .next (((s.processingStart p (vfs.map (fun n => n.val)) ctl).fireAllHeld p).finish s.pending))
    ∧ (∀ (p : Fin 16) (vfs : Option (Fin 16)), s.live = true → exec (.partitionProcessingStop p vfs) s = .next ((s.processingStop p (vfs.map (fun n => n.val))).finish s.pending))

/-- For every state whose units answer (VDD_AON up for the always-on domain; out of reset for the others; for a register write a function that answers, and the first READY reached for the blocks that sleep before it), and for all operands, each of these commands answers the next state that its rule gives, in the model's operation for that rule, with the copies of every command's end: UNSUPPORTED_REQUEST, REGISTER_WRITE, MSIX_UNMASK, BUS_MASTER_ENABLE_CLEAR, JOB, ROI_LIST_FETCH, SUBMISSION_FETCH_ERROR, ECRC_CHECK_FAILURE, SMBUS_READ_STATUS, SMBUS_READ_FAULT_CAUSE, SMBUS_READ_TEMP_MAX, SMBUS_READ_TEMP_SENSOR, SMBUS_READ_POWER_NOW, SMBUS_READ_POWER_CAP, SMBUS_READ_VDD_ARRAY, SMBUS_READ_VDD_LOGIC, SMBUS_READ_REEF_STATE, SMBUS_READ_TB, SMBUS_READ_ID, SMBUS_READ_FAULT_RECORD, SMBUS_RESET_ARM, SMBUS_RESET_REQUEST. (derived; from 14_host_endpoint.md) -/
def Obligations.HostCommandsHaveTheirEffect : Prop :=
  ∀ (s : State),
    (∀ (f : Fin 16) (kind : Fin 9) (bar : Fin 4) (addr : BitVec 64) (posted : Bool), s.fnLive 0 = true → exec (.unsupportedRequest f kind bar addr posted) s = .next ((s.unsupportedRequest f kind bar addr.toNat posted).finish s.pending))
    ∧ (∀ (f : Fin 16) (bar : Fin 2) (o : BitVec 28) (data : Blob), exec (.registerWrite f bar o data) s = .next ((s.registerWrite f (2 * bar.val) o.toNat data.len data.val).finish s.pending))
    ∧ (∀ (f : Fin 16) (v : Fin 2048), exec (.msixUnmask f v) s = .next ((s.msixUnmask f v).finish s.pending))
    ∧ (∀ (f : Fin 16) (d3 : Bool), s.fnLive f = true → exec (.busMasterEnableClear f d3) s = .next ((s.bmeClear f d3).finish s.pending))
    ∧ (∀ (p : Fin 16) (e : Desc64), s.live = true → exec (.job p e) s = .next ((s.fetchJob p e).finish s.pending))
    ∧ (∀ (st : Fin 96) (e : Desc64), s.live = true → exec (.roiListFetch st e) s = .next ((s.roiFetch st e).finish s.pending))
    ∧ (∀ (q : Fin 16384), s.live = true → exec (.submissionFetchError q) s = .next ((s.fetchError q).finish s.pending))
    ∧ (∀ (f : Fin 16), s.fnLive f = true → exec (.ecrcCheckFailure f) s = .next ((s.ecrcFailure f).finish s.pending))
    ∧ (exec .smbusReadStatus s = .next ((s.smbusRead 2 (s.smbusStatus)).finish s.pending))
    ∧ (exec .smbusReadFaultCause s = .next ((s.smbusRead 2 (s.fld Reg.safFaultCause 0 16)).finish s.pending))
    ∧ (exec .smbusReadTempMax s = .next ((s.smbusRead 2 (s.fld Reg.pwtTempMax 16 16)).finish s.pending))
    ∧ (∀ (k : Fin 12), exec (.smbusReadTempSensor k) s = .next ((s.smbusRead 2 (s.fld (Reg.pwtTemp k) 0 16)).finish s.pending))
    ∧ (exec .smbusReadPowerNow s = .next ((s.smbusRead 2 (s.fld Reg.pwtPowerNow 0 16)).finish s.pending))
    ∧ (exec .smbusReadPowerCap s = .next ((s.smbusRead 2 (s.fld Reg.pwtPowerCap 0 16)).finish s.pending))
    ∧ (exec .smbusReadVddArray s = .next ((s.smbusRead 2 (s.fld Reg.pwtVddArray 0 16)).finish s.pending))
    ∧ (exec .smbusReadVddLogic s = .next ((s.smbusRead 2 (s.fld Reg.pwtVddLogic 0 16)).finish s.pending))
    ∧ (exec .smbusReadReefState s = .next ((s.smbusRead 2 (s.fld Reg.pwtReefState 0 16)).finish s.pending))
    ∧ (exec .smbusReadTb s = .next ((s.smbusRead 8 (s.now)).finish s.pending))
    ∧ (exec .smbusReadId s = .next ((s.smbusRead 16 (s.smbusId)).finish s.pending))
    ∧ (exec .smbusReadFaultRecord s = .next ((s.smbusRead 16 (s.smbusFault)).finish s.pending))
    ∧ (∀ (v : BitVec 8), exec (.smbusResetArm v) s = .next ((s.smbusArm v.toNat).finish s.pending))
    ∧ (∀ (v : BitVec 8), exec (.smbusResetRequest v) s = .next ((s.smbusReset v.toNat).finish s.pending))

/-- For every state whose units answer (VDD_AON up for the always-on domain; out of reset for the others; for a register write a function that answers, and the first READY reached for the blocks that sleep before it), and for all operands, each of these commands answers the next state that its rule gives, in the model's operation for that rule, with the copies of every command's end: POWER_ON, PERST_N_ASSERT, COLD_START, HOT_RESET, PF_FLR, VF_FLR, RESTART, POWER_OFF, POR_N_ASSERT. (derived; from 14_host_endpoint.md, 16_start_and_restart.md) -/
def Obligations.StartCommandsHaveTheirEffect : Prop :=
  ∀ (s : State),
    (∀ (src addr : BitVec 2), s.pins.porLow = true → exec (.powerOn src addr) s = .next ((s.burnAtPowerLoss.powerOn src addr).finish s.pending))
    ∧ (s.live = true → exec .perstNAssert s = .next ((s.perst).finish s.pending))
    ∧ (∀ (t : StartFacts), s.pins.aonUp = true → exec (.coldStart t) s = .next ((s.coldStart t).finish s.pending))
    ∧ (∀ (linkDown : Bool), s.live = true → exec (.hotReset linkDown) s = .next ((s.hotReset linkDown).finish s.pending))
    ∧ (s.live = true → exec .pfFlr s = .next ((s.pfFlr).finish s.pending))
    ∧ (∀ (f : Fin 16), s.live = true → exec (.vfFlr f) s = .next ((s.vfFlr f).finish s.pending))
    ∧ (∀ (t : StartFacts) (fault : Option (BitVec 8)), s.live = true → exec (.restart t fault) s = .next ((s.restart t (fault.map (fun c => c.toNat))).finish s.pending))
    ∧ (s.pins.aonUp = true → exec .powerOff s = .next ((s.powerOff).finish s.pending))
    ∧ (s.pins.aonUp = true → exec .porNAssert s = .next ((if s.pins.porLow then s else s.porAssert).finish s.pending))

/-- For every state whose units answer (VDD_AON up for the always-on domain; out of reset for the others; for a register write a function that answers, and the first READY reached for the blocks that sleep before it), and for all operands, each of these commands answers the next state that its rule gives, in the model's operation for that rule, with the copies of every command's end: NOP, GET_INFO, LOAD_MODEL, UNLOAD_MODEL, BIND, UNBIND, RESTRUCTURE, CAL_COMMIT, SELF_TEST_FULL, SUPPLY_IMAGE, ATTEST, JTAG_CHALLENGE, JTAG_RESPONSE, LONG_COMMAND_END. (derived; from 14_host_endpoint.md, 15_structure_image.md, 17_security.md) -/
def Obligations.MailboxCommandsHaveTheirEffect : Prop :=
  ∀ (s : State),
    (∀ (f : Fin 16) (tag : BitVec 8), exec (.nop f tag) s = .next ((s.nopCmd f tag.toNat).finish s.pending))
    ∧ (∀ (f : Fin 16) (tag : BitVec 8), exec (.getInfo f tag) s = .next ((s.infoCmd f tag.toNat).finish s.pending))
    ∧ (∀ (f : Fin 16) (tag : BitVec 8) (ok : Bool) (b : Blob), exec (.loadModel f tag ok b) s = .next ((s.loadModel f tag.toNat ok b).finish s.pending))
    ∧ (∀ (f : Fin 16) (tag : BitVec 8), exec (.unloadModel f tag) s = .next ((s.unloadModel f tag.toNat).finish s.pending))
    ∧ (∀ (f : Fin 16) (tag : BitVec 8), exec (.bind f tag) s = .next ((s.bindCmd f tag.toNat).finish s.pending))
    ∧ (∀ (f : Fin 16) (tag : BitVec 8), exec (.unbind f tag) s = .next ((s.unbindCmd f tag.toNat).finish s.pending))
    ∧ (∀ (f : Fin 16) (tag : BitVec 8) (ok : Bool) (b : Blob), exec (.restructure f tag ok b) s = .next ((s.restructure f tag.toNat ok b).finish s.pending))
    ∧ (∀ (f : Fin 16) (tag : BitVec 8) (ok : Bool), exec (.calCommit f tag ok) s = .next ((s.calCommit f tag.toNat ok).finish s.pending))
    ∧ (∀ (f : Fin 16) (tag : BitVec 8) (fails : BitVec 41), exec (.selfTestFull f tag fails) s = .next ((s.selfTestFull f tag.toNat fails.toNat).finish s.pending))
    ∧ (∀ (f : Fin 16) (tag : BitVec 8) (t : StartFacts) (ok : Bool) (b b2 : Blob), exec (.supplyImage f tag t ok b b2) s = .next ((s.supplyCmd f tag.toNat t ok b b2).finish s.pending))
    ∧ (∀ (f : Fin 16) (tag : BitVec 8), exec (.attest f tag) s = .next ((s.attestCmd f tag.toNat).finish s.pending))
    ∧ (∀ (f : Fin 16) (tag : BitVec 8), exec (.jtagChallenge f tag) s = .next ((s.challengeCmd f tag.toNat).finish s.pending))
    ∧ (∀ (f : Fin 16) (tag : BitVec 8), exec (.jtagResponse f tag) s = .next ((s.responseCmd f tag.toNat).finish s.pending))
    ∧ (∀ (f : Fin 16), s.live = true → exec (.longCommandEnd f) s = .next ((s.longEnd f).finish s.pending))

/-- For every state whose units answer (VDD_AON up for the always-on domain; out of reset for the others; for a register write a function that answers, and the first READY reached for the blocks that sleep before it), and for all operands, each of these commands answers the next state that its rule gives, in the model's operation for that rule, with the copies of every command's end: SEC_CAL_SHADOW_WRITE, REVOKE_SLOT, ADVANCE_ROLLBACK, DISABLE_JTAG, FUSE_BURN_COMPLETE, JTAG_CHALLENGE_EXPIRY, SEC_JTAG_RELOCK_WRITE, ERROR_EVENT, STICKY_BIT_CLEAR, ERR_FIRST_STATUS_WRITE. (derived; from 16_start_and_restart.md, 17_security.md, 19_error_record.md) -/
def Obligations.SecurityAndErrorCommandsHaveTheirEffect : Prop :=
  ∀ (s : State),
    (∀ (k : Fin 512) (v : Word), s.fnLive 0 = true → exec (.secCalShadowWrite k v) s = .next ((s.setShadow k v.toNat).finish s.pending))
    ∧ (∀ (slot : Fin 4) (confirm : BitVec 16), s.fnLive 0 = true → exec (.revokeSlot slot confirm) s = .next ((s.fuseRequest 1 slot confirm.toNat).finish s.pending))
    ∧ (∀ (confirm : BitVec 16), s.fnLive 0 = true → exec (.advanceRollback confirm) s = .next ((s.fuseRequest 2 0 confirm.toNat).finish s.pending))
    ∧ (∀ (confirm : BitVec 16), s.fnLive 0 = true → exec (.disableJtag confirm) s = .next ((s.fuseRequest 3 0 confirm.toNat).finish s.pending))
    ∧ (∀ (ok : Bool), s.pins.aonUp = true → exec (.fuseBurnComplete ok) s = .next ((s.fuseDone ok).finish s.pending))
    ∧ (s.pins.aonUp = true → exec .jtagChallengeExpiry s = .next ((s.challengeExpiry).finish s.pending))
    ∧ (∀ (v : Word), s.fnLive 0 = true → exec (.secJtagRelockWrite v) s = .next ((s.jtagRelock v.toNat).finish s.pending))
    ∧ (∀ (picks : List Nat), s.pins.aonUp = true → exec (.errorEvent picks) s = .next ((s.errorEvent picks).finish s.pending))
    ∧ (∀ (idx : Fin 19) (unit : Fin 16) (mask : Word) (again : List EventFacts), s.fnLive 0 = true → exec (.stickyBitClear idx unit mask again) s = .next ((s.stickyClear idx unit mask.toNat (again.map (fun e => eventOf e idx))).finish s.pending))
    ∧ (∀ (v : Word) (picks : List Nat), s.fnLive 0 = true → exec (.errFirstStatusWrite v picks) s = .next ((s.errFirstWrite v.toNat picks).finish s.pending))
end

