-- ==== Sys2Proof/Laws/State.lean ====
section
/-!
SUPPORT. What the plain updates of State leave alone: one lemma per update and field, true by definition.
-/
namespace Sys2Proof.Laws
open Sys2Proof.Machine

@[simp] theorem wr_pending (s : State) (a v : Nat) : (s.wr a v).pending = s.pending := rfl
@[simp] theorem wr_mem (s : State) (a v : Nat) : (s.wr a v).mem = s.mem := rfl
@[simp] theorem wr_ecc (s : State) (a v : Nat) : (s.wr a v).ecc = s.ecc := rfl
@[simp] theorem wr_hostMem (s : State) (a v : Nat) : (s.wr a v).hostMem = s.hostMem := rfl
@[simp] theorem wr_out (s : State) (a v : Nat) : (s.wr a v).out = s.out := rfl
@[simp] theorem wr_fresh (s : State) (a v : Nat) : (s.wr a v).fresh = s.fresh := rfl
@[simp] theorem wr_pins (s : State) (a v : Nat) : (s.wr a v).pins = s.pins := rfl
@[simp] theorem wr_tb (s : State) (a v : Nat) : (s.wr a v).tb = s.tb := rfl
@[simp] theorem wr_err (s : State) (a v : Nat) : (s.wr a v).err = s.err := rfl
@[simp] theorem wr_hep (s : State) (a v : Nat) : (s.wr a v).hep = s.hep := rfl
@[simp] theorem wr_col (s : State) (a v : Nat) : (s.wr a v).col = s.col := rfl
@[simp] theorem wr_saf (s : State) (a v : Nat) : (s.wr a v).saf = s.saf := rfl
@[simp] theorem wr_pool (s : State) (a v : Nat) : (s.wr a v).pool = s.pool := rfl
@[simp] theorem wr_hal (s : State) (a v : Nat) : (s.wr a v).hal = s.hal := rfl
@[simp] theorem wr_cfg (s : State) (a v : Nat) : (s.wr a v).cfg = s.cfg := rfl
@[simp] theorem wr_pwt (s : State) (a v : Nat) : (s.wr a v).pwt = s.pwt := rfl
@[simp] theorem wr_cores (s : State) (a v : Nat) : (s.wr a v).cores = s.cores := rfl
@[simp] theorem wr_pln (s : State) (a v : Nat) : (s.wr a v).pln = s.pln := rfl
@[simp] theorem wr_ing (s : State) (a v : Nat) : (s.wr a v).ing = s.ing := rfl
@[simp] theorem wr_dec (s : State) (a v : Nat) : (s.wr a v).dec = s.dec := rfl
@[simp] theorem wr_enc (s : State) (a v : Nat) : (s.wr a v).enc = s.enc := rfl
@[simp] theorem wr_pfe (s : State) (a v : Nat) : (s.wr a v).pfe = s.pfe := rfl
@[simp] theorem wr_trk (s : State) (a v : Nat) : (s.wr a v).trk = s.trk := rfl
@[simp] theorem wr_dram (s : State) (a v : Nat) : (s.wr a v).dram = s.dram := rfl
@[simp] theorem wr_sec (s : State) (a v : Nat) : (s.wr a v).sec = s.sec := rfl

@[simp] theorem setFld_pending (s : State) (a lo len x : Nat) : (s.setFld a lo len x).pending = s.pending := rfl
@[simp] theorem setFld_mem (s : State) (a lo len x : Nat) : (s.setFld a lo len x).mem = s.mem := rfl
@[simp] theorem setFld_ecc (s : State) (a lo len x : Nat) : (s.setFld a lo len x).ecc = s.ecc := rfl
@[simp] theorem setFld_hostMem (s : State) (a lo len x : Nat) : (s.setFld a lo len x).hostMem = s.hostMem := rfl
@[simp] theorem setFld_out (s : State) (a lo len x : Nat) : (s.setFld a lo len x).out = s.out := rfl
@[simp] theorem setFld_fresh (s : State) (a lo len x : Nat) : (s.setFld a lo len x).fresh = s.fresh := rfl
@[simp] theorem setFld_pins (s : State) (a lo len x : Nat) : (s.setFld a lo len x).pins = s.pins := rfl
@[simp] theorem setFld_tb (s : State) (a lo len x : Nat) : (s.setFld a lo len x).tb = s.tb := rfl
@[simp] theorem setFld_err (s : State) (a lo len x : Nat) : (s.setFld a lo len x).err = s.err := rfl
@[simp] theorem setFld_hep (s : State) (a lo len x : Nat) : (s.setFld a lo len x).hep = s.hep := rfl
@[simp] theorem setFld_col (s : State) (a lo len x : Nat) : (s.setFld a lo len x).col = s.col := rfl
@[simp] theorem setFld_saf (s : State) (a lo len x : Nat) : (s.setFld a lo len x).saf = s.saf := rfl
@[simp] theorem setFld_pool (s : State) (a lo len x : Nat) : (s.setFld a lo len x).pool = s.pool := rfl
@[simp] theorem setFld_hal (s : State) (a lo len x : Nat) : (s.setFld a lo len x).hal = s.hal := rfl
@[simp] theorem setFld_cfg (s : State) (a lo len x : Nat) : (s.setFld a lo len x).cfg = s.cfg := rfl
@[simp] theorem setFld_pwt (s : State) (a lo len x : Nat) : (s.setFld a lo len x).pwt = s.pwt := rfl
@[simp] theorem setFld_cores (s : State) (a lo len x : Nat) : (s.setFld a lo len x).cores = s.cores := rfl
@[simp] theorem setFld_pln (s : State) (a lo len x : Nat) : (s.setFld a lo len x).pln = s.pln := rfl
@[simp] theorem setFld_ing (s : State) (a lo len x : Nat) : (s.setFld a lo len x).ing = s.ing := rfl
@[simp] theorem setFld_dec (s : State) (a lo len x : Nat) : (s.setFld a lo len x).dec = s.dec := rfl
@[simp] theorem setFld_enc (s : State) (a lo len x : Nat) : (s.setFld a lo len x).enc = s.enc := rfl
@[simp] theorem setFld_pfe (s : State) (a lo len x : Nat) : (s.setFld a lo len x).pfe = s.pfe := rfl
@[simp] theorem setFld_trk (s : State) (a lo len x : Nat) : (s.setFld a lo len x).trk = s.trk := rfl
@[simp] theorem setFld_dram (s : State) (a lo len x : Nat) : (s.setFld a lo len x).dram = s.dram := rfl
@[simp] theorem setFld_sec (s : State) (a lo len x : Nat) : (s.setFld a lo len x).sec = s.sec := rfl

@[simp] theorem bump_pending (s : State) (a n : Nat) : (s.bump a n).pending = s.pending := rfl
@[simp] theorem bump_mem (s : State) (a n : Nat) : (s.bump a n).mem = s.mem := rfl
@[simp] theorem bump_ecc (s : State) (a n : Nat) : (s.bump a n).ecc = s.ecc := rfl
@[simp] theorem bump_hostMem (s : State) (a n : Nat) : (s.bump a n).hostMem = s.hostMem := rfl
@[simp] theorem bump_out (s : State) (a n : Nat) : (s.bump a n).out = s.out := rfl
@[simp] theorem bump_fresh (s : State) (a n : Nat) : (s.bump a n).fresh = s.fresh := rfl
@[simp] theorem bump_pins (s : State) (a n : Nat) : (s.bump a n).pins = s.pins := rfl
@[simp] theorem bump_tb (s : State) (a n : Nat) : (s.bump a n).tb = s.tb := rfl
@[simp] theorem bump_err (s : State) (a n : Nat) : (s.bump a n).err = s.err := rfl
@[simp] theorem bump_hep (s : State) (a n : Nat) : (s.bump a n).hep = s.hep := rfl
@[simp] theorem bump_col (s : State) (a n : Nat) : (s.bump a n).col = s.col := rfl
@[simp] theorem bump_saf (s : State) (a n : Nat) : (s.bump a n).saf = s.saf := rfl
@[simp] theorem bump_pool (s : State) (a n : Nat) : (s.bump a n).pool = s.pool := rfl
@[simp] theorem bump_hal (s : State) (a n : Nat) : (s.bump a n).hal = s.hal := rfl
@[simp] theorem bump_cfg (s : State) (a n : Nat) : (s.bump a n).cfg = s.cfg := rfl
@[simp] theorem bump_pwt (s : State) (a n : Nat) : (s.bump a n).pwt = s.pwt := rfl
@[simp] theorem bump_cores (s : State) (a n : Nat) : (s.bump a n).cores = s.cores := rfl
@[simp] theorem bump_pln (s : State) (a n : Nat) : (s.bump a n).pln = s.pln := rfl
@[simp] theorem bump_ing (s : State) (a n : Nat) : (s.bump a n).ing = s.ing := rfl
@[simp] theorem bump_dec (s : State) (a n : Nat) : (s.bump a n).dec = s.dec := rfl
@[simp] theorem bump_enc (s : State) (a n : Nat) : (s.bump a n).enc = s.enc := rfl
@[simp] theorem bump_pfe (s : State) (a n : Nat) : (s.bump a n).pfe = s.pfe := rfl
@[simp] theorem bump_trk (s : State) (a n : Nat) : (s.bump a n).trk = s.trk := rfl
@[simp] theorem bump_dram (s : State) (a n : Nat) : (s.bump a n).dram = s.dram := rfl
@[simp] theorem bump_sec (s : State) (a n : Nat) : (s.bump a n).sec = s.sec := rfl

@[simp] theorem wr64_pending (s : State) (a v : Nat) : (s.wr64 a v).pending = s.pending := rfl
@[simp] theorem wr64_mem (s : State) (a v : Nat) : (s.wr64 a v).mem = s.mem := rfl
@[simp] theorem wr64_ecc (s : State) (a v : Nat) : (s.wr64 a v).ecc = s.ecc := rfl
@[simp] theorem wr64_hostMem (s : State) (a v : Nat) : (s.wr64 a v).hostMem = s.hostMem := rfl
@[simp] theorem wr64_out (s : State) (a v : Nat) : (s.wr64 a v).out = s.out := rfl
@[simp] theorem wr64_fresh (s : State) (a v : Nat) : (s.wr64 a v).fresh = s.fresh := rfl
@[simp] theorem wr64_pins (s : State) (a v : Nat) : (s.wr64 a v).pins = s.pins := rfl
@[simp] theorem wr64_tb (s : State) (a v : Nat) : (s.wr64 a v).tb = s.tb := rfl
@[simp] theorem wr64_err (s : State) (a v : Nat) : (s.wr64 a v).err = s.err := rfl
@[simp] theorem wr64_hep (s : State) (a v : Nat) : (s.wr64 a v).hep = s.hep := rfl
@[simp] theorem wr64_col (s : State) (a v : Nat) : (s.wr64 a v).col = s.col := rfl
@[simp] theorem wr64_saf (s : State) (a v : Nat) : (s.wr64 a v).saf = s.saf := rfl
@[simp] theorem wr64_pool (s : State) (a v : Nat) : (s.wr64 a v).pool = s.pool := rfl
@[simp] theorem wr64_hal (s : State) (a v : Nat) : (s.wr64 a v).hal = s.hal := rfl
@[simp] theorem wr64_cfg (s : State) (a v : Nat) : (s.wr64 a v).cfg = s.cfg := rfl
@[simp] theorem wr64_pwt (s : State) (a v : Nat) : (s.wr64 a v).pwt = s.pwt := rfl
@[simp] theorem wr64_cores (s : State) (a v : Nat) : (s.wr64 a v).cores = s.cores := rfl
@[simp] theorem wr64_pln (s : State) (a v : Nat) : (s.wr64 a v).pln = s.pln := rfl
@[simp] theorem wr64_ing (s : State) (a v : Nat) : (s.wr64 a v).ing = s.ing := rfl
@[simp] theorem wr64_dec (s : State) (a v : Nat) : (s.wr64 a v).dec = s.dec := rfl
@[simp] theorem wr64_enc (s : State) (a v : Nat) : (s.wr64 a v).enc = s.enc := rfl
@[simp] theorem wr64_pfe (s : State) (a v : Nat) : (s.wr64 a v).pfe = s.pfe := rfl
@[simp] theorem wr64_trk (s : State) (a v : Nat) : (s.wr64 a v).trk = s.trk := rfl
@[simp] theorem wr64_dram (s : State) (a v : Nat) : (s.wr64 a v).dram = s.dram := rfl
@[simp] theorem wr64_sec (s : State) (a v : Nat) : (s.wr64 a v).sec = s.sec := rfl

@[simp] theorem bump64_pending (s : State) (a n : Nat) : (s.bump64 a n).pending = s.pending := rfl
@[simp] theorem bump64_mem (s : State) (a n : Nat) : (s.bump64 a n).mem = s.mem := rfl
@[simp] theorem bump64_ecc (s : State) (a n : Nat) : (s.bump64 a n).ecc = s.ecc := rfl
@[simp] theorem bump64_hostMem (s : State) (a n : Nat) : (s.bump64 a n).hostMem = s.hostMem := rfl
@[simp] theorem bump64_out (s : State) (a n : Nat) : (s.bump64 a n).out = s.out := rfl
@[simp] theorem bump64_fresh (s : State) (a n : Nat) : (s.bump64 a n).fresh = s.fresh := rfl
@[simp] theorem bump64_pins (s : State) (a n : Nat) : (s.bump64 a n).pins = s.pins := rfl
@[simp] theorem bump64_tb (s : State) (a n : Nat) : (s.bump64 a n).tb = s.tb := rfl
@[simp] theorem bump64_err (s : State) (a n : Nat) : (s.bump64 a n).err = s.err := rfl
@[simp] theorem bump64_hep (s : State) (a n : Nat) : (s.bump64 a n).hep = s.hep := rfl
@[simp] theorem bump64_col (s : State) (a n : Nat) : (s.bump64 a n).col = s.col := rfl
@[simp] theorem bump64_saf (s : State) (a n : Nat) : (s.bump64 a n).saf = s.saf := rfl
@[simp] theorem bump64_pool (s : State) (a n : Nat) : (s.bump64 a n).pool = s.pool := rfl
@[simp] theorem bump64_hal (s : State) (a n : Nat) : (s.bump64 a n).hal = s.hal := rfl
@[simp] theorem bump64_cfg (s : State) (a n : Nat) : (s.bump64 a n).cfg = s.cfg := rfl
@[simp] theorem bump64_pwt (s : State) (a n : Nat) : (s.bump64 a n).pwt = s.pwt := rfl
@[simp] theorem bump64_cores (s : State) (a n : Nat) : (s.bump64 a n).cores = s.cores := rfl
@[simp] theorem bump64_pln (s : State) (a n : Nat) : (s.bump64 a n).pln = s.pln := rfl
@[simp] theorem bump64_ing (s : State) (a n : Nat) : (s.bump64 a n).ing = s.ing := rfl
@[simp] theorem bump64_dec (s : State) (a n : Nat) : (s.bump64 a n).dec = s.dec := rfl
@[simp] theorem bump64_enc (s : State) (a n : Nat) : (s.bump64 a n).enc = s.enc := rfl
@[simp] theorem bump64_pfe (s : State) (a n : Nat) : (s.bump64 a n).pfe = s.pfe := rfl
@[simp] theorem bump64_trk (s : State) (a n : Nat) : (s.bump64 a n).trk = s.trk := rfl
@[simp] theorem bump64_dram (s : State) (a n : Nat) : (s.bump64 a n).dram = s.dram := rfl
@[simp] theorem bump64_sec (s : State) (a n : Nat) : (s.bump64 a n).sec = s.sec := rfl

@[simp] theorem clearRegs_pending (s : State) (lo hi : Nat) : (s.clearRegs lo hi).pending = s.pending := rfl
@[simp] theorem clearRegs_mem (s : State) (lo hi : Nat) : (s.clearRegs lo hi).mem = s.mem := rfl
@[simp] theorem clearRegs_ecc (s : State) (lo hi : Nat) : (s.clearRegs lo hi).ecc = s.ecc := rfl
@[simp] theorem clearRegs_hostMem (s : State) (lo hi : Nat) : (s.clearRegs lo hi).hostMem = s.hostMem := rfl
@[simp] theorem clearRegs_out (s : State) (lo hi : Nat) : (s.clearRegs lo hi).out = s.out := rfl
@[simp] theorem clearRegs_fresh (s : State) (lo hi : Nat) : (s.clearRegs lo hi).fresh = s.fresh := rfl
@[simp] theorem clearRegs_pins (s : State) (lo hi : Nat) : (s.clearRegs lo hi).pins = s.pins := rfl
@[simp] theorem clearRegs_tb (s : State) (lo hi : Nat) : (s.clearRegs lo hi).tb = s.tb := rfl
@[simp] theorem clearRegs_err (s : State) (lo hi : Nat) : (s.clearRegs lo hi).err = s.err := rfl
@[simp] theorem clearRegs_hep (s : State) (lo hi : Nat) : (s.clearRegs lo hi).hep = s.hep := rfl
@[simp] theorem clearRegs_col (s : State) (lo hi : Nat) : (s.clearRegs lo hi).col = s.col := rfl
@[simp] theorem clearRegs_saf (s : State) (lo hi : Nat) : (s.clearRegs lo hi).saf = s.saf := rfl
@[simp] theorem clearRegs_pool (s : State) (lo hi : Nat) : (s.clearRegs lo hi).pool = s.pool := rfl
@[simp] theorem clearRegs_hal (s : State) (lo hi : Nat) : (s.clearRegs lo hi).hal = s.hal := rfl
@[simp] theorem clearRegs_cfg (s : State) (lo hi : Nat) : (s.clearRegs lo hi).cfg = s.cfg := rfl
@[simp] theorem clearRegs_pwt (s : State) (lo hi : Nat) : (s.clearRegs lo hi).pwt = s.pwt := rfl
@[simp] theorem clearRegs_cores (s : State) (lo hi : Nat) : (s.clearRegs lo hi).cores = s.cores := rfl
@[simp] theorem clearRegs_pln (s : State) (lo hi : Nat) : (s.clearRegs lo hi).pln = s.pln := rfl
@[simp] theorem clearRegs_ing (s : State) (lo hi : Nat) : (s.clearRegs lo hi).ing = s.ing := rfl
@[simp] theorem clearRegs_dec (s : State) (lo hi : Nat) : (s.clearRegs lo hi).dec = s.dec := rfl
@[simp] theorem clearRegs_enc (s : State) (lo hi : Nat) : (s.clearRegs lo hi).enc = s.enc := rfl
@[simp] theorem clearRegs_pfe (s : State) (lo hi : Nat) : (s.clearRegs lo hi).pfe = s.pfe := rfl
@[simp] theorem clearRegs_trk (s : State) (lo hi : Nat) : (s.clearRegs lo hi).trk = s.trk := rfl
@[simp] theorem clearRegs_dram (s : State) (lo hi : Nat) : (s.clearRegs lo hi).dram = s.dram := rfl
@[simp] theorem clearRegs_sec (s : State) (lo hi : Nat) : (s.clearRegs lo hi).sec = s.sec := rfl

@[simp] theorem emit_pending (s : State) (o : Out) : (s.emit o).pending = s.pending := rfl
@[simp] theorem emit_regs (s : State) (o : Out) : (s.emit o).regs = s.regs := rfl
@[simp] theorem emit_mem (s : State) (o : Out) : (s.emit o).mem = s.mem := rfl
@[simp] theorem emit_ecc (s : State) (o : Out) : (s.emit o).ecc = s.ecc := rfl
@[simp] theorem emit_hostMem (s : State) (o : Out) : (s.emit o).hostMem = s.hostMem := rfl
@[simp] theorem emit_fresh (s : State) (o : Out) : (s.emit o).fresh = s.fresh := rfl
@[simp] theorem emit_pins (s : State) (o : Out) : (s.emit o).pins = s.pins := rfl
@[simp] theorem emit_tb (s : State) (o : Out) : (s.emit o).tb = s.tb := rfl
@[simp] theorem emit_err (s : State) (o : Out) : (s.emit o).err = s.err := rfl
@[simp] theorem emit_hep (s : State) (o : Out) : (s.emit o).hep = s.hep := rfl
@[simp] theorem emit_col (s : State) (o : Out) : (s.emit o).col = s.col := rfl
@[simp] theorem emit_saf (s : State) (o : Out) : (s.emit o).saf = s.saf := rfl
@[simp] theorem emit_pool (s : State) (o : Out) : (s.emit o).pool = s.pool := rfl
@[simp] theorem emit_hal (s : State) (o : Out) : (s.emit o).hal = s.hal := rfl
@[simp] theorem emit_cfg (s : State) (o : Out) : (s.emit o).cfg = s.cfg := rfl
@[simp] theorem emit_pwt (s : State) (o : Out) : (s.emit o).pwt = s.pwt := rfl
@[simp] theorem emit_cores (s : State) (o : Out) : (s.emit o).cores = s.cores := rfl
@[simp] theorem emit_pln (s : State) (o : Out) : (s.emit o).pln = s.pln := rfl
@[simp] theorem emit_ing (s : State) (o : Out) : (s.emit o).ing = s.ing := rfl
@[simp] theorem emit_dec (s : State) (o : Out) : (s.emit o).dec = s.dec := rfl
@[simp] theorem emit_enc (s : State) (o : Out) : (s.emit o).enc = s.enc := rfl
@[simp] theorem emit_pfe (s : State) (o : Out) : (s.emit o).pfe = s.pfe := rfl
@[simp] theorem emit_trk (s : State) (o : Out) : (s.emit o).trk = s.trk := rfl
@[simp] theorem emit_dram (s : State) (o : Out) : (s.emit o).dram = s.dram := rfl
@[simp] theorem emit_sec (s : State) (o : Out) : (s.emit o).sec = s.sec := rfl

@[simp] theorem wrByte_pending (s : State) (a : Nat) (b : Byte) : (s.wrByte a b).pending = s.pending := rfl
@[simp] theorem wrByte_regs (s : State) (a : Nat) (b : Byte) : (s.wrByte a b).regs = s.regs := rfl
@[simp] theorem wrByte_ecc (s : State) (a : Nat) (b : Byte) : (s.wrByte a b).ecc = s.ecc := rfl
@[simp] theorem wrByte_hostMem (s : State) (a : Nat) (b : Byte) : (s.wrByte a b).hostMem = s.hostMem := rfl
@[simp] theorem wrByte_out (s : State) (a : Nat) (b : Byte) : (s.wrByte a b).out = s.out := rfl
@[simp] theorem wrByte_fresh (s : State) (a : Nat) (b : Byte) : (s.wrByte a b).fresh = s.fresh := rfl
@[simp] theorem wrByte_pins (s : State) (a : Nat) (b : Byte) : (s.wrByte a b).pins = s.pins := rfl
@[simp] theorem wrByte_tb (s : State) (a : Nat) (b : Byte) : (s.wrByte a b).tb = s.tb := rfl
@[simp] theorem wrByte_err (s : State) (a : Nat) (b : Byte) : (s.wrByte a b).err = s.err := rfl
@[simp] theorem wrByte_hep (s : State) (a : Nat) (b : Byte) : (s.wrByte a b).hep = s.hep := rfl
@[simp] theorem wrByte_col (s : State) (a : Nat) (b : Byte) : (s.wrByte a b).col = s.col := rfl
@[simp] theorem wrByte_saf (s : State) (a : Nat) (b : Byte) : (s.wrByte a b).saf = s.saf := rfl
@[simp] theorem wrByte_pool (s : State) (a : Nat) (b : Byte) : (s.wrByte a b).pool = s.pool := rfl
@[simp] theorem wrByte_hal (s : State) (a : Nat) (b : Byte) : (s.wrByte a b).hal = s.hal := rfl
@[simp] theorem wrByte_cfg (s : State) (a : Nat) (b : Byte) : (s.wrByte a b).cfg = s.cfg := rfl
@[simp] theorem wrByte_pwt (s : State) (a : Nat) (b : Byte) : (s.wrByte a b).pwt = s.pwt := rfl
@[simp] theorem wrByte_cores (s : State) (a : Nat) (b : Byte) : (s.wrByte a b).cores = s.cores := rfl
@[simp] theorem wrByte_pln (s : State) (a : Nat) (b : Byte) : (s.wrByte a b).pln = s.pln := rfl
@[simp] theorem wrByte_ing (s : State) (a : Nat) (b : Byte) : (s.wrByte a b).ing = s.ing := rfl
@[simp] theorem wrByte_dec (s : State) (a : Nat) (b : Byte) : (s.wrByte a b).dec = s.dec := rfl
@[simp] theorem wrByte_enc (s : State) (a : Nat) (b : Byte) : (s.wrByte a b).enc = s.enc := rfl
@[simp] theorem wrByte_pfe (s : State) (a : Nat) (b : Byte) : (s.wrByte a b).pfe = s.pfe := rfl
@[simp] theorem wrByte_trk (s : State) (a : Nat) (b : Byte) : (s.wrByte a b).trk = s.trk := rfl
@[simp] theorem wrByte_dram (s : State) (a : Nat) (b : Byte) : (s.wrByte a b).dram = s.dram := rfl
@[simp] theorem wrByte_sec (s : State) (a : Nat) (b : Byte) : (s.wrByte a b).sec = s.sec := rfl

@[simp] theorem hostByte_pending (s : State) (f a : Nat) (b : Byte) : (s.hostByte f a b).pending = s.pending := rfl
@[simp] theorem hostByte_regs (s : State) (f a : Nat) (b : Byte) : (s.hostByte f a b).regs = s.regs := rfl
@[simp] theorem hostByte_mem (s : State) (f a : Nat) (b : Byte) : (s.hostByte f a b).mem = s.mem := rfl
@[simp] theorem hostByte_ecc (s : State) (f a : Nat) (b : Byte) : (s.hostByte f a b).ecc = s.ecc := rfl
@[simp] theorem hostByte_out (s : State) (f a : Nat) (b : Byte) : (s.hostByte f a b).out = s.out := rfl
@[simp] theorem hostByte_fresh (s : State) (f a : Nat) (b : Byte) : (s.hostByte f a b).fresh = s.fresh := rfl
@[simp] theorem hostByte_pins (s : State) (f a : Nat) (b : Byte) : (s.hostByte f a b).pins = s.pins := rfl
@[simp] theorem hostByte_tb (s : State) (f a : Nat) (b : Byte) : (s.hostByte f a b).tb = s.tb := rfl
@[simp] theorem hostByte_err (s : State) (f a : Nat) (b : Byte) : (s.hostByte f a b).err = s.err := rfl
@[simp] theorem hostByte_hep (s : State) (f a : Nat) (b : Byte) : (s.hostByte f a b).hep = s.hep := rfl
@[simp] theorem hostByte_col (s : State) (f a : Nat) (b : Byte) : (s.hostByte f a b).col = s.col := rfl
@[simp] theorem hostByte_saf (s : State) (f a : Nat) (b : Byte) : (s.hostByte f a b).saf = s.saf := rfl
@[simp] theorem hostByte_pool (s : State) (f a : Nat) (b : Byte) : (s.hostByte f a b).pool = s.pool := rfl
@[simp] theorem hostByte_hal (s : State) (f a : Nat) (b : Byte) : (s.hostByte f a b).hal = s.hal := rfl
@[simp] theorem hostByte_cfg (s : State) (f a : Nat) (b : Byte) : (s.hostByte f a b).cfg = s.cfg := rfl
@[simp] theorem hostByte_pwt (s : State) (f a : Nat) (b : Byte) : (s.hostByte f a b).pwt = s.pwt := rfl
@[simp] theorem hostByte_cores (s : State) (f a : Nat) (b : Byte) : (s.hostByte f a b).cores = s.cores := rfl
@[simp] theorem hostByte_pln (s : State) (f a : Nat) (b : Byte) : (s.hostByte f a b).pln = s.pln := rfl
@[simp] theorem hostByte_ing (s : State) (f a : Nat) (b : Byte) : (s.hostByte f a b).ing = s.ing := rfl
@[simp] theorem hostByte_dec (s : State) (f a : Nat) (b : Byte) : (s.hostByte f a b).dec = s.dec := rfl
@[simp] theorem hostByte_enc (s : State) (f a : Nat) (b : Byte) : (s.hostByte f a b).enc = s.enc := rfl
@[simp] theorem hostByte_pfe (s : State) (f a : Nat) (b : Byte) : (s.hostByte f a b).pfe = s.pfe := rfl
@[simp] theorem hostByte_trk (s : State) (f a : Nat) (b : Byte) : (s.hostByte f a b).trk = s.trk := rfl
@[simp] theorem hostByte_dram (s : State) (f a : Nat) (b : Byte) : (s.hostByte f a b).dram = s.dram := rfl
@[simp] theorem hostByte_sec (s : State) (f a : Nat) (b : Byte) : (s.hostByte f a b).sec = s.sec := rfl

@[simp] theorem fault_pending (s : State) (r : FaultReport) : (s.fault r).pending = s.pending := rfl
@[simp] theorem fault_regs (s : State) (r : FaultReport) : (s.fault r).regs = s.regs := rfl
@[simp] theorem fault_mem (s : State) (r : FaultReport) : (s.fault r).mem = s.mem := rfl
@[simp] theorem fault_ecc (s : State) (r : FaultReport) : (s.fault r).ecc = s.ecc := rfl
@[simp] theorem fault_hostMem (s : State) (r : FaultReport) : (s.fault r).hostMem = s.hostMem := rfl
@[simp] theorem fault_out (s : State) (r : FaultReport) : (s.fault r).out = s.out := rfl
@[simp] theorem fault_fresh (s : State) (r : FaultReport) : (s.fault r).fresh = s.fresh := rfl
@[simp] theorem fault_pins (s : State) (r : FaultReport) : (s.fault r).pins = s.pins := rfl
@[simp] theorem fault_tb (s : State) (r : FaultReport) : (s.fault r).tb = s.tb := rfl
@[simp] theorem fault_err (s : State) (r : FaultReport) : (s.fault r).err = s.err := rfl
@[simp] theorem fault_hep (s : State) (r : FaultReport) : (s.fault r).hep = s.hep := rfl
@[simp] theorem fault_col (s : State) (r : FaultReport) : (s.fault r).col = s.col := rfl
@[simp] theorem fault_pool (s : State) (r : FaultReport) : (s.fault r).pool = s.pool := rfl
@[simp] theorem fault_hal (s : State) (r : FaultReport) : (s.fault r).hal = s.hal := rfl
@[simp] theorem fault_cfg (s : State) (r : FaultReport) : (s.fault r).cfg = s.cfg := rfl
@[simp] theorem fault_pwt (s : State) (r : FaultReport) : (s.fault r).pwt = s.pwt := rfl
@[simp] theorem fault_cores (s : State) (r : FaultReport) : (s.fault r).cores = s.cores := rfl
@[simp] theorem fault_pln (s : State) (r : FaultReport) : (s.fault r).pln = s.pln := rfl
@[simp] theorem fault_ing (s : State) (r : FaultReport) : (s.fault r).ing = s.ing := rfl
@[simp] theorem fault_dec (s : State) (r : FaultReport) : (s.fault r).dec = s.dec := rfl
@[simp] theorem fault_enc (s : State) (r : FaultReport) : (s.fault r).enc = s.enc := rfl
@[simp] theorem fault_pfe (s : State) (r : FaultReport) : (s.fault r).pfe = s.pfe := rfl
@[simp] theorem fault_trk (s : State) (r : FaultReport) : (s.fault r).trk = s.trk := rfl
@[simp] theorem fault_dram (s : State) (r : FaultReport) : (s.fault r).dram = s.dram := rfl
@[simp] theorem fault_sec (s : State) (r : FaultReport) : (s.fault r).sec = s.sec := rfl

@[simp] theorem handRec_pending (s : State) (port : Nat) (r : Rec) : (s.handRec port r).pending = s.pending := rfl
@[simp] theorem handRec_regs (s : State) (port : Nat) (r : Rec) : (s.handRec port r).regs = s.regs := rfl
@[simp] theorem handRec_mem (s : State) (port : Nat) (r : Rec) : (s.handRec port r).mem = s.mem := rfl
@[simp] theorem handRec_ecc (s : State) (port : Nat) (r : Rec) : (s.handRec port r).ecc = s.ecc := rfl
@[simp] theorem handRec_hostMem (s : State) (port : Nat) (r : Rec) : (s.handRec port r).hostMem = s.hostMem := rfl
@[simp] theorem handRec_out (s : State) (port : Nat) (r : Rec) : (s.handRec port r).out = s.out := rfl
@[simp] theorem handRec_fresh (s : State) (port : Nat) (r : Rec) : (s.handRec port r).fresh = s.fresh := rfl
@[simp] theorem handRec_pins (s : State) (port : Nat) (r : Rec) : (s.handRec port r).pins = s.pins := rfl
@[simp] theorem handRec_tb (s : State) (port : Nat) (r : Rec) : (s.handRec port r).tb = s.tb := rfl
@[simp] theorem handRec_err (s : State) (port : Nat) (r : Rec) : (s.handRec port r).err = s.err := rfl
@[simp] theorem handRec_hep (s : State) (port : Nat) (r : Rec) : (s.handRec port r).hep = s.hep := rfl
@[simp] theorem handRec_saf (s : State) (port : Nat) (r : Rec) : (s.handRec port r).saf = s.saf := rfl
@[simp] theorem handRec_pool (s : State) (port : Nat) (r : Rec) : (s.handRec port r).pool = s.pool := rfl
@[simp] theorem handRec_hal (s : State) (port : Nat) (r : Rec) : (s.handRec port r).hal = s.hal := rfl
@[simp] theorem handRec_cfg (s : State) (port : Nat) (r : Rec) : (s.handRec port r).cfg = s.cfg := rfl
@[simp] theorem handRec_pwt (s : State) (port : Nat) (r : Rec) : (s.handRec port r).pwt = s.pwt := rfl
@[simp] theorem handRec_cores (s : State) (port : Nat) (r : Rec) : (s.handRec port r).cores = s.cores := rfl
@[simp] theorem handRec_pln (s : State) (port : Nat) (r : Rec) : (s.handRec port r).pln = s.pln := rfl
@[simp] theorem handRec_ing (s : State) (port : Nat) (r : Rec) : (s.handRec port r).ing = s.ing := rfl
@[simp] theorem handRec_dec (s : State) (port : Nat) (r : Rec) : (s.handRec port r).dec = s.dec := rfl
@[simp] theorem handRec_enc (s : State) (port : Nat) (r : Rec) : (s.handRec port r).enc = s.enc := rfl
@[simp] theorem handRec_pfe (s : State) (port : Nat) (r : Rec) : (s.handRec port r).pfe = s.pfe := rfl
@[simp] theorem handRec_trk (s : State) (port : Nat) (r : Rec) : (s.handRec port r).trk = s.trk := rfl
@[simp] theorem handRec_dram (s : State) (port : Nat) (r : Rec) : (s.handRec port r).dram = s.dram := rfl
@[simp] theorem handRec_sec (s : State) (port : Nat) (r : Rec) : (s.handRec port r).sec = s.sec := rfl

end Sys2Proof.Laws
end

