-- ==== Sys2Proof/Laws/Table.lean ====
section
/-!
SUPPORT. Sparse tables: what a read gives after a write, and that writes keep the canonical form.
-/
namespace Sys2Proof.Laws
open Sys2Proof.Machine

theorem find_insert_same {α : Type} (t : Tab α) (k : Nat) (v : α) : Tab.find (Tab.insert t k v) k = some v := by
  induction t with
  | nil => simp [Tab.insert, Tab.find]
  | cons e t ih =>
    obtain ⟨j, w⟩ := e
    simp only [Tab.insert]
    split
    · simp [Tab.find]
    · split
      · simp [Tab.find]
      · have : ¬ j = k := by omega
        simp [Tab.find, this, ih]

theorem find_insert_other {α : Type} (t : Tab α) {k j : Nat} (v : α) (h : j ≠ k) : Tab.find (Tab.insert t k v) j = Tab.find t j := by
  induction t with
  | nil => simp [Tab.insert, Tab.find, Ne.symm h]
  | cons e t ih =>
    obtain ⟨i, w⟩ := e
    simp only [Tab.insert]
    split
    · simp [Tab.find, Ne.symm h]
    · split
      · subst_vars; simp [Tab.find, Ne.symm h]
      · simp [Tab.find, ih]

theorem find_erase_same {α : Type} (t : Tab α) (k : Nat) : Tab.find (Tab.erase t k) k = none := by
  induction t with
  | nil => rfl
  | cons e t ih =>
    obtain ⟨i, w⟩ := e
    simp only [Tab.erase]
    split
    · exact ih
    · simp [Tab.find, *]

theorem find_erase_other {α : Type} (t : Tab α) {k j : Nat} (h : j ≠ k) : Tab.find (Tab.erase t k) j = Tab.find t j := by
  induction t with
  | nil => rfl
  | cons e t ih =>
    obtain ⟨i, w⟩ := e
    simp only [Tab.erase]
    split
    · subst_vars; simp [Tab.find, Ne.symm h, ih]
    · simp [Tab.find, ih]

@[simp] theorem read_write_same {α : Type} [DecidableEq α] (d : Nat → α) (t : Tab α) (k : Nat) (v : α) : Tab.read d (Tab.write d t k v) k = v := by
  unfold Tab.read Tab.write
  split
  · simp [find_erase_same, *]
  · simp [find_insert_same]

theorem read_write_other {α : Type} [DecidableEq α] (d : Nat → α) (t : Tab α) {k j : Nat} (v : α) (h : j ≠ k) : Tab.read d (Tab.write d t k v) j = Tab.read d t j := by
  unfold Tab.read Tab.write
  split
  · rw [find_erase_other _ h]
  · rw [find_insert_other _ _ h]

theorem read_write {α : Type} [DecidableEq α] (d : Nat → α) (t : Tab α) (k j : Nat) (v : α) : Tab.read d (Tab.write d t k v) j = if j = k then v else Tab.read d t j := by
  split
  · subst_vars; simp
  · exact read_write_other d t v ‹_›

theorem okFrom_mono {α : Type} [DecidableEq α] (d : Nat → α) (t : Tab α) {lo hi : Nat} (h : Tab.okFrom d hi t = true) (le : lo ≤ hi) : Tab.okFrom d lo t = true := by
  cases t with
  | nil => rfl
  | cons e t =>
    obtain ⟨j, v⟩ := e
    simp only [Tab.okFrom, Bool.and_eq_true, decide_eq_true_eq] at h ⊢
    exact ⟨⟨by omega, h.1.2⟩, h.2⟩

theorem okFrom_insert {α : Type} [DecidableEq α] (d : Nat → α) (t : Tab α) (lo k : Nat) (v : α) (h : Tab.okFrom d lo t = true) (hk : lo ≤ k) (hv : v ≠ d k) :
    Tab.okFrom d lo (Tab.insert t k v) = true := by
  induction t generalizing lo with
  | nil => simp [Tab.insert, Tab.okFrom, hk, hv]
  | cons e t ih =>
    obtain ⟨j, w⟩ := e
    simp only [Tab.okFrom, Bool.and_eq_true, decide_eq_true_eq] at h
    simp only [Tab.insert]
    split
    · simp only [Tab.okFrom, Bool.and_eq_true, decide_eq_true_eq]
      exact ⟨⟨hk, hv⟩, ⟨by omega, h.1.2⟩, h.2⟩
    · split
      · subst_vars
        simp only [Tab.okFrom, Bool.and_eq_true, decide_eq_true_eq]
        exact ⟨⟨hk, hv⟩, h.2⟩
      · simp only [Tab.okFrom, Bool.and_eq_true, decide_eq_true_eq]
        exact ⟨h.1, ih _ h.2 (by omega)⟩

theorem okFrom_filter {α : Type} [DecidableEq α] (d : Nat → α) (t : Tab α) (lo : Nat) (p : Nat × α → Bool) (h : Tab.okFrom d lo t = true) : Tab.okFrom d lo (t.filter p) = true := by
  induction t generalizing lo with
  | nil => rfl
  | cons e t ih =>
    obtain ⟨j, w⟩ := e
    simp only [Tab.okFrom, Bool.and_eq_true, decide_eq_true_eq] at h
    simp only [List.filter]
    split
    · simp only [Tab.okFrom, Bool.and_eq_true, decide_eq_true_eq]
      exact ⟨h.1, ih _ h.2⟩
    · exact okFrom_mono d _ (ih _ h.2) (by omega)

theorem erase_eq_filter {α : Type} (t : Tab α) (k : Nat) : Tab.erase t k = t.filter (fun e => !decide (e.1 = k)) := by
  induction t with
  | nil => rfl
  | cons e t ih =>
    obtain ⟨j, w⟩ := e
    by_cases h : j = k <;> simp [Tab.erase, List.filter, h, ih]

theorem wf_write {α : Type} [DecidableEq α] (d : Nat → α) (t : Tab α) (k : Nat) (v : α) (h : Tab.wf d t = true) : Tab.wf d (Tab.write d t k v) = true := by
  unfold Tab.wf Tab.write at *
  split
  · rw [erase_eq_filter]; exact okFrom_filter d t 0 _ h
  · exact okFrom_insert d t 0 k v h (Nat.zero_le _) ‹_›

theorem wf_filter {α : Type} [DecidableEq α] (d : Nat → α) (t : Tab α) (p : Nat × α → Bool) (h : Tab.wf d t = true) : Tab.wf d (t.filter p) = true :=
  okFrom_filter d t 0 p h

theorem wf_erase {α : Type} [DecidableEq α] (d : Nat → α) (t : Tab α) (k : Nat) (h : Tab.wf d t = true) : Tab.wf d (Tab.erase t k) = true := by
  rw [erase_eq_filter]; exact wf_filter d t _ h

theorem wf_clear {α : Type} [DecidableEq α] (d : Nat → α) (t : Tab α) (lo hi : Nat) (h : Tab.wf d t = true) : Tab.wf d (Tab.clear t lo hi) = true :=
  wf_filter d t _ h

/-- What a loop keeps: a relation that every step keeps. -/
theorem loopUp_keeps {σ : Type} (P : σ → Prop) (n : Nat) (f : Nat → σ → σ) (s : σ) (h0 : P s) (h : ∀ k x, k < n → P x → P (f k x)) : P (loopUp n f s) := by
  induction n with
  | zero => exact h0
  | succ n ih => exact h n _ (Nat.lt_succ_self n) (ih (fun k x hk hx => h k x (Nat.lt_succ_of_lt hk) hx))

/-- What a fold keeps. -/
theorem foldl_keeps {σ β : Type} (P : σ → Prop) (l : List β) (f : σ → β → σ) (s : σ) (h0 : P s) (h : ∀ x b, P x → P (f x b)) : P (l.foldl f s) := by
  induction l generalizing s with
  | nil => exact h0
  | cons b t ih => exact ih _ (h s b h0)

end Sys2Proof.Laws
end

