-- ==== Sys2Proof/Laws/Ops.lean ====
section
/-!
SUPPORT. What the shared operations over registers and memory do: reads after writes, and the canonical form of the tables.
-/
namespace Sys2Proof.Laws
open Sys2Proof.Machine

/-! ### Bit fields -/

theorem bits_lt (v lo len : Nat) : bits v lo len < 2 ^ len := Nat.mod_lt _ (Nat.two_pow_pos len)

/-- A number with a field replaced, bit by bit. -/
theorem testBit_putBits (v lo len x i : Nat) :
    (putBits v lo len x).testBit i = if lo ≤ i ∧ i < lo + len then x.testBit (i - lo) else v.testBit i := by
  have hv : v = (v / 2 ^ (lo + len)) * 2 ^ (lo + len) + (bits v lo len * 2 ^ lo + v % 2 ^ lo) := by
    unfold bits
    rw [Nat.shiftRight_eq_div_pow]
    have h1 := Nat.div_add_mod v (2 ^ lo)
    have h2 := Nat.div_add_mod (v / 2 ^ lo) (2 ^ len)
    rw [Nat.div_div_eq_div_mul] at h2
    rw [Nat.pow_add]
    calc v = 2 ^ lo * (v / 2 ^ lo) + v % 2 ^ lo := h1.symm
      _ = 2 ^ lo * (2 ^ len * (v / (2 ^ lo * 2 ^ len)) + v / 2 ^ lo % 2 ^ len) + v % 2 ^ lo := by rw [h2]
      _ = _ := by ring
  have hp : putBits v lo len x = (v / 2 ^ (lo + len)) * 2 ^ (lo + len) + ((x % 2 ^ len) * 2 ^ lo + v % 2 ^ lo) := by
    unfold putBits
    rw [Nat.shiftLeft_eq, Nat.shiftLeft_eq]
    omega
  have hm : v % 2 ^ lo < 2 ^ lo := Nat.mod_lt _ (Nat.two_pow_pos lo)
  have hx : x % 2 ^ len < 2 ^ len := Nat.mod_lt _ (Nat.two_pow_pos len)
  have hin : (x % 2 ^ len) * 2 ^ lo + v % 2 ^ lo < 2 ^ (lo + len) := by
    rw [Nat.pow_add]
    calc (x % 2 ^ len) * 2 ^ lo + v % 2 ^ lo < (x % 2 ^ len) * 2 ^ lo + 2 ^ lo := by omega
      _ = (x % 2 ^ len + 1) * 2 ^ lo := by ring
      _ ≤ 2 ^ len * 2 ^ lo := Nat.mul_le_mul_right _ hx
      _ = _ := by ring
  rw [hp]
  rw [show v / 2 ^ (lo + len) * 2 ^ (lo + len) = 2 ^ (lo + len) * (v / 2 ^ (lo + len)) by ring,
    show (x % 2 ^ len) * 2 ^ lo = 2 ^ lo * (x % 2 ^ len) by ring]
  rw [show (x % 2 ^ len) * 2 ^ lo = 2 ^ lo * (x % 2 ^ len) by ring] at hin
  rw [Nat.testBit_two_pow_mul_add _ hin, Nat.testBit_two_pow_mul_add _ hm]
  by_cases h1 : i < lo
  · have : i < lo + len := by omega
    simp [h1, this, Nat.testBit_mod_two_pow, show ¬ (lo ≤ i) by omega]
  · by_cases h2 : i < lo + len
    · have : i - lo < len := by omega
      simp [h1, h2, Nat.testBit_mod_two_pow, this, show lo ≤ i by omega]
    · simp only [h1, h2, if_false, and_false]
      rw [Nat.testBit_div_two_pow]
      congr 1; omega

theorem putBits_lt (v lo len x w : Nat) (hv : v < 2 ^ w) (hl : lo + len ≤ w) : putBits v lo len x < 2 ^ w := by
  apply Nat.lt_pow_two_of_testBit
  intro i hi
  rw [testBit_putBits]
  have : ¬ (lo ≤ i ∧ i < lo + len) := by omega
  simp only [this, if_false]
  exact Nat.testBit_lt_two_pow (Nat.lt_of_lt_of_le hv (Nat.pow_le_pow_right (by decide) hi))

theorem testBit_bits (v lo len i : Nat) : (bits v lo len).testBit i = (decide (i < len) && v.testBit (lo + i)) := by
  unfold bits
  rw [Nat.testBit_mod_two_pow, Nat.testBit_shiftRight]

theorem bits_putBits_same (v lo len x : Nat) : bits (putBits v lo len x) lo len = x % 2 ^ len := by
  apply Nat.eq_of_testBit_eq
  intro i
  rw [testBit_bits, testBit_putBits, Nat.testBit_mod_two_pow]
  by_cases h : i < len
  · simp [h]
  · simp [h]

theorem bits_putBits_other (v lo len x lo' len' : Nat) (h : lo' + len' ≤ lo ∨ lo + len ≤ lo') : bits (putBits v lo len x) lo' len' = bits v lo' len' := by
  apply Nat.eq_of_testBit_eq
  intro i
  rw [testBit_bits, testBit_bits, testBit_putBits]
  by_cases hi : i < len'
  · have : ¬ (lo ≤ lo' + i ∧ lo' + i < lo + len) := by omega
    simp [this]
  · simp [hi]

/-! ### Registers -/

theorem rd_lt (s : State) (a : Nat) : s.rd a < 2 ^ 32 := (Tab.read regReset s.regs a).isLt

@[simp] theorem rd_wr_same (s : State) (a v : Nat) : (s.wr a v).rd a = v % 2 ^ 32 := by
  simp [State.rd, State.wr]

theorem rd_wr_other (s : State) {a b : Nat} (v : Nat) (h : b ≠ a) : (s.wr a v).rd b = s.rd b := by
  simp [State.rd, State.wr, read_write_other _ _ _ h]

theorem rd_wr (s : State) (a b v : Nat) : (s.wr a v).rd b = if b = a then v % 2 ^ 32 else s.rd b := by
  split
  · subst_vars; simp
  · exact rd_wr_other s v ‹_›

theorem rd_setFld_other (s : State) {a b : Nat} (lo len x : Nat) (h : b ≠ a) : (s.setFld a lo len x).rd b = s.rd b := rd_wr_other s _ h

theorem rd_setFld_same (s : State) (a lo len x : Nat) (h : lo + len ≤ 32) : (s.setFld a lo len x).rd a = putBits (s.rd a) lo len x := by
  rw [State.setFld, rd_wr_same, Nat.mod_eq_of_lt (putBits_lt _ _ _ _ _ (rd_lt s a) h)]

theorem fld_setFld_same (s : State) (a lo len x : Nat) (h : lo + len ≤ 32) : (s.setFld a lo len x).fld a lo len = x % 2 ^ len := by
  rw [State.fld, rd_setFld_same s a lo len x h, bits_putBits_same]

theorem fld_setFld_apart (s : State) (a lo len x lo' len' : Nat) (h : lo + len ≤ 32) (d : lo' + len' ≤ lo ∨ lo + len ≤ lo') :
    (s.setFld a lo len x).fld a lo' len' = s.fld a lo' len' := by
  rw [State.fld, rd_setFld_same s a lo len x h, bits_putBits_other _ _ _ _ _ _ d, State.fld]

theorem bitAt_setFld_same (s : State) (a lo len x i : Nat) (h : lo + len ≤ 32) :
    (s.setFld a lo len x).bitAt a i = if lo ≤ i ∧ i < lo + len then x.testBit (i - lo) else s.bitAt a i := by
  rw [State.bitAt, rd_setFld_same s a lo len x h, bit, testBit_putBits]; rfl

theorem rd_bump_other (s : State) {a b : Nat} (n : Nat) (h : b ≠ a) : (s.bump a n).rd b = s.rd b := rd_wr_other s _ h

/-- A counter after an event: one more, held at its greatest value. -/
theorem rd_bump_same (s : State) (a n : Nat) : (s.bump a n).rd a = min (s.rd a + n) (2 ^ 32 - 1) := by
  rw [State.bump, rd_wr_same, satAdd, Nat.mod_eq_of_lt]
  have : min (s.rd a + n) (2 ^ 32 - 1) ≤ 2 ^ 32 - 1 := Nat.min_le_right _ _
  omega

theorem rd_wr64_other (s : State) {a b : Nat} (v : Nat) (h : b ≠ a) (h' : b ≠ a + 4) : (s.wr64 a v).rd b = s.rd b := by
  rw [State.wr64, rd_wr_other _ _ h', rd_wr_other _ _ h]

/-- A 64-bit register reads back what was written (R8). -/
theorem rd64_wr64_same (s : State) (a v : Nat) (h : v < 2 ^ 64) : (s.wr64 a v).rd64 a = v := by
  have h1 : a ≠ a + 4 := by omega
  rw [State.rd64, State.wr64, rd_wr_other _ _ h1, rd_wr_same, rd_wr_same, Nat.shiftRight_eq_div_pow]
  omega

/-- Registers stay in canonical form. -/
theorem regs_wf_wr (s : State) (a v : Nat) (h : Tab.wf regReset s.regs = true) : Tab.wf regReset (s.wr a v).regs = true := wf_write _ _ _ _ h

/-! ### Memory -/

/-- The canonical form of device memory and of host memory. -/
def memWf (s : State) : Prop := Memory.wf s.mem = true ∧ Memory.wf s.hostMem = true

theorem rdByte_wrByte (s : State) (a b : Nat) (v : Byte) : (s.wrByte a v).rdByte b = if b = a then v else s.rdByte b :=
  read_write _ _ _ _ _

theorem wrByte_wf (s : State) (a : Nat) (v : Byte) (h : memWf s) : memWf (s.wrByte a v) := ⟨wf_write _ _ _ _ h.1, h.2⟩

theorem wrBytes_wf (s : State) (a n v : Nat) (h : memWf s) : memWf (s.wrBytes a n v) := by
  induction n generalizing s a v with
  | zero => exact h
  | succ n ih => exact ih _ _ _ (wrByte_wf s a _ h)

theorem hostWr_wf (s : State) (f a n v : Nat) (h : memWf s) : memWf (s.hostWr f a n v) := by
  induction n generalizing s a v with
  | zero => exact h
  | succ n ih => exact ih _ _ _ ⟨h.1, wf_write _ _ _ _ h.2⟩

/-- A byte outside the bytes written reads as before. -/
theorem rdByte_wrBytes_other (s : State) (a n v b : Nat) (h : b < a ∨ a + n ≤ b) : (s.wrBytes a n v).rdByte b = s.rdByte b := by
  induction n generalizing s a v with
  | zero => rfl
  | succ n ih =>
    rw [State.wrBytes, ih _ _ _ (by omega), rdByte_wrByte, if_neg (by omega)]

/-- Byte `k` of the bytes written reads as byte `k` of the number (R8). -/
theorem rdByte_wrBytes_same (s : State) (a n v k : Nat) (h : k < n) : (s.wrBytes a n v).rdByte (a + k) = BitVec.ofNat 8 (v >>> (8 * k)) := by
  induction n generalizing s a v k with
  | zero => omega
  | succ n ih =>
    rw [State.wrBytes]
    cases k with
    | zero => rw [rdByte_wrBytes_other _ _ _ _ _ (by omega), rdByte_wrByte]; simp
    | succ k =>
      have := ih (s.wrByte a (BitVec.ofNat 8 v)) (a + 1) (v >>> 8) k (by omega)
      rw [show a + (k + 1) = a + 1 + k by omega, this, ← Nat.shiftRight_add]
      congr 2; omega

end Sys2Proof.Laws
end

