-- ==== Sys2Proof/Laws/Commands.lean ====
section
/-!
SUPPORT. What the end of every command does, and the guards of the commands.
-/
namespace Sys2Proof.Laws
open Sys2Proof.Machine

/-! ### The end of a command -/

/-- Sync objects that wait for their reset: the registers of sync objects and the list of those that wait change, nothing else. -/
theorem settleResets_eq (s : State) : ∃ r h, s.settleResets = { s with regs := r, hal := h } ∧
    ∀ a, ¬ (Reg.halSyncValue 0 ≤ a ∧ a < Reg.halSyncValue 65536) → Tab.read regReset r a = Tab.read regReset s.regs a := by
  unfold State.settleResets
  apply foldl_keeps (fun x : State => ∃ r h, x = { s with regs := r, hal := h } ∧
    ∀ a, ¬ (Reg.halSyncValue 0 ≤ a ∧ a < Reg.halSyncValue 65536) → Tab.read regReset r a = Tab.read regReset s.regs a)
  · exact ⟨s.regs, s.hal, rfl, fun _ _ => rfl⟩
  · rintro x n ⟨r, h, rfl, hr⟩
    split
    · exact ⟨r, h, rfl, hr⟩
    · refine ⟨_, _, rfl, ?_⟩
      intro a ha
      have hn := Nat.mod_lt n (show 0 < 65536 by decide)
      simp only [Reg.halSyncValue] at ha
      simp only [State.wr64, State.wr]
      rw [read_write_other _ _ _ (by simp only [Reg.halSyncValue]; omega), read_write_other _ _ _ (by simp only [Reg.halSyncValue]; omega)]
      exact hr a (by simp only [Reg.halSyncValue]; exact ha)

/-- A word written, for any state: the rest of the state, and every other register. -/
theorem wr_eq (s : State) (a v : Nat) : s.wr a v = { s with regs := (s.wr a v).regs } := rfl

/-- The copies of other state: only their registers change. -/
theorem mirror_eq (s : State) : ∃ r, s.mirror = { s with regs := r } ∧
    ∀ a, a ≠ Reg.safStatus → a ≠ Reg.mgmtStatus → a ≠ Reg.errSummary → Tab.read regReset r a = Tab.read regReset s.regs a := by
  unfold State.mirror
  generalize b2n s.pins.faultN = f
  simp only [State.setFld]
  generalize putBits _ _ _ _ = x1
  generalize putBits _ _ _ _ = x2
  generalize putBits _ _ _ _ = x3
  generalize State.errSummary _ = x4
  refine ⟨_, rfl, ?_⟩
  intro a h1 h2 h3
  rw [read_write_other _ _ _ h3]
  simp only [State.wr]
  rw [read_write_other _ _ _ h2, read_write_other _ _ _ h2, read_write_other _ _ _ h1]

/-- The end of a command: registers of `endReg`, the list of objects that wait for their reset, the times at which front ends saw source waits met, and the queue change, nothing else. -/
theorem finish_eq (s : State) (q : List Instr) : ∃ r h p, s.finish q = { s with regs := r, hal := h, pfe := p, pending := q } ∧
    ∀ a, endReg a = false → Tab.read regReset r a = Tab.read regReset s.regs a := by
  obtain ⟨r, h, he, hr⟩ := settleResets_eq s
  obtain ⟨r2, he2, hr2⟩ := mirror_eq s.settleResets
  refine ⟨r2, h, s.settleResets.mirror.noteMet.pfe, by rw [State.finish, State.noteMet, he2, he], ?_⟩
  intro a ha
  simp only [endReg, Bool.or_eq_false_iff, decide_eq_false_iff_not, Bool.and_eq_false_iff] at ha
  obtain ⟨⟨⟨h1, h2⟩, h3⟩, h4⟩ := ha
  rw [hr2 a h1 h2 h3, he]
  exact hr a (by rintro ⟨x, y⟩; rcases h4 with z | z <;> exact z ‹_›)

theorem finish_rd (s : State) (q : List Instr) {a : Nat} (h : endReg a = false) : (s.finish q).rd a = s.rd a := by
  obtain ⟨r, x, p, he, hr⟩ := finish_eq s q
  simp [he, State.rd, hr a h]

theorem finish_rdByte (s : State) (q : List Instr) (a : Nat) : (s.finish q).rdByte a = s.rdByte a := by
  obtain ⟨r, x, p, he, _⟩ := finish_eq s q
  simp [he, State.rdByte]

@[simp] theorem finish_pending (s : State) (q : List Instr) : (s.finish q).pending = q := by
  obtain ⟨r, x, p, he, _⟩ := finish_eq s q; simp [he]

@[simp] theorem finish_mem (s : State) (q : List Instr) : (s.finish q).mem = s.mem := by
  obtain ⟨r, x, p, he, _⟩ := finish_eq s q; simp [he]

@[simp] theorem finish_ecc (s : State) (q : List Instr) : (s.finish q).ecc = s.ecc := by
  obtain ⟨r, x, p, he, _⟩ := finish_eq s q; simp [he]

@[simp] theorem finish_hostMem (s : State) (q : List Instr) : (s.finish q).hostMem = s.hostMem := by
  obtain ⟨r, x, p, he, _⟩ := finish_eq s q; simp [he]

@[simp] theorem finish_out (s : State) (q : List Instr) : (s.finish q).out = s.out := by
  obtain ⟨r, x, p, he, _⟩ := finish_eq s q; simp [he]

@[simp] theorem finish_fresh (s : State) (q : List Instr) : (s.finish q).fresh = s.fresh := by
  obtain ⟨r, x, p, he, _⟩ := finish_eq s q; simp [he]

@[simp] theorem finish_pins (s : State) (q : List Instr) : (s.finish q).pins = s.pins := by
  obtain ⟨r, x, p, he, _⟩ := finish_eq s q; simp [he]

@[simp] theorem finish_tb (s : State) (q : List Instr) : (s.finish q).tb = s.tb := by
  obtain ⟨r, x, p, he, _⟩ := finish_eq s q; simp [he]

@[simp] theorem finish_err (s : State) (q : List Instr) : (s.finish q).err = s.err := by
  obtain ⟨r, x, p, he, _⟩ := finish_eq s q; simp [he]

@[simp] theorem finish_hep (s : State) (q : List Instr) : (s.finish q).hep = s.hep := by
  obtain ⟨r, x, p, he, _⟩ := finish_eq s q; simp [he]

@[simp] theorem finish_col (s : State) (q : List Instr) : (s.finish q).col = s.col := by
  obtain ⟨r, x, p, he, _⟩ := finish_eq s q; simp [he]

@[simp] theorem finish_saf (s : State) (q : List Instr) : (s.finish q).saf = s.saf := by
  obtain ⟨r, x, p, he, _⟩ := finish_eq s q; simp [he]

@[simp] theorem finish_pool (s : State) (q : List Instr) : (s.finish q).pool = s.pool := by
  obtain ⟨r, x, p, he, _⟩ := finish_eq s q; simp [he]

@[simp] theorem finish_cfg (s : State) (q : List Instr) : (s.finish q).cfg = s.cfg := by
  obtain ⟨r, x, p, he, _⟩ := finish_eq s q; simp [he]

@[simp] theorem finish_pwt (s : State) (q : List Instr) : (s.finish q).pwt = s.pwt := by
  obtain ⟨r, x, p, he, _⟩ := finish_eq s q; simp [he]

@[simp] theorem finish_cores (s : State) (q : List Instr) : (s.finish q).cores = s.cores := by
  obtain ⟨r, x, p, he, _⟩ := finish_eq s q; simp [he]

@[simp] theorem finish_pln (s : State) (q : List Instr) : (s.finish q).pln = s.pln := by
  obtain ⟨r, x, p, he, _⟩ := finish_eq s q; simp [he]

@[simp] theorem finish_ing (s : State) (q : List Instr) : (s.finish q).ing = s.ing := by
  obtain ⟨r, x, p, he, _⟩ := finish_eq s q; simp [he]

@[simp] theorem finish_dec (s : State) (q : List Instr) : (s.finish q).dec = s.dec := by
  obtain ⟨r, x, p, he, _⟩ := finish_eq s q; simp [he]

@[simp] theorem finish_enc (s : State) (q : List Instr) : (s.finish q).enc = s.enc := by
  obtain ⟨r, x, p, he, _⟩ := finish_eq s q; simp [he]

@[simp] theorem finish_trk (s : State) (q : List Instr) : (s.finish q).trk = s.trk := by
  obtain ⟨r, x, p, he, _⟩ := finish_eq s q; simp [he]

@[simp] theorem finish_dram (s : State) (q : List Instr) : (s.finish q).dram = s.dram := by
  obtain ⟨r, x, p, he, _⟩ := finish_eq s q; simp [he]

@[simp] theorem finish_sec (s : State) (q : List Instr) : (s.finish q).sec = s.sec := by
  obtain ⟨r, x, p, he, _⟩ := finish_eq s q; simp [he]

/-! ### What the end of a command leaves, in the terms of the statements -/

theorem sameMem_finish {s x : State} {q : List Instr} (h : x.mem = s.mem) (h' : x.ecc = s.ecc) : s.sameMem (x.finish q) :=
  ⟨fun a => by rw [finish_rdByte]; simp [State.rdByte, h], by simp [h']⟩

theorem sameOutside_finish {s x : State} {q : List Instr} (h : x.hostMem = s.hostMem) (h' : x.out = s.out) : s.sameOutside (x.finish q) := by
  simp [State.sameOutside, h, h']

theorem sameRegs_finish {s x : State} {q : List Instr} {sel : Nat → Bool} (h : ∀ a, sel a = false → endReg a = false → x.rd a = s.rd a) :
    s.sameRegs (x.finish q) sel := by
  intro a h1 h2
  rw [finish_rd _ _ h2]
  exact h a h1 h2

theorem finish_bitAt (s : State) (q : List Instr) {a : Nat} (i : Nat) (h : endReg a = false) : (s.finish q).bitAt a i = s.bitAt a i := by
  simp [State.bitAt, finish_rd _ _ h]

theorem finish_fld (s : State) (q : List Instr) {a : Nat} (i l : Nat) (h : endReg a = false) : (s.finish q).fld a i l = s.fld a i l := by
  simp [State.fld, finish_rd _ _ h]

theorem finish_rd64 (s : State) (q : List Instr) {a : Nat} (h : endReg a = false) (h' : endReg (a + 4) = false) : (s.finish q).rd64 a = s.rd64 a := by
  simp [State.rd64, finish_rd _ _ h, finish_rd _ _ h']

/-! ### Guards -/

theorem whenOn_on {s : State} (act : State → State) (h : s.pins.aonUp = true) : s.whenOn act = act s := by simp [State.whenOn, h]

theorem whenLive_live {s : State} (act : State → State) (h : s.live = true) : s.whenLive act = act s := by simp [State.whenLive, h]

theorem whenFn_live {s : State} {f : Nat} (act : State → State) (h : s.fnLive f = true) : s.whenFn f act = act s := by simp [State.whenFn, h]

theorem whenUp_up {s : State} {f : Nat} (act : State → State) (h : s.fnLive f = true) (h' : s.sec.started = true) : s.whenUp f act = act s := by
  simp [State.whenUp, h, h']

theorem whenPor_low {s : State} (act : State → State) (h : s.pins.porLow = true) : s.whenPor act = act s := by simp [State.whenPor, h]

end Sys2Proof.Laws
end

