-- ==== Sys2Proof/Laws/Errors.lean ====
section
/-!
SUPPORT. What a message, an error event and FAULT_N change (R339, R436, R318).
-/
namespace Sys2Proof.Laws
open Sys2Proof.Machine

/-! ### Messages -/

theorem msix_rd (s : State) (f v : Nat) {a : Nat} (h : a ≠ msixPba f v) : (s.msix f v).rd a = s.rd a := by
  unfold State.msix
  split
  · exact rd_setFld_other _ _ _ _ h
  · rfl

@[simp] theorem msix_err (s : State) (f v : Nat) : (s.msix f v).err = s.err := by unfold State.msix; split <;> rfl
@[simp] theorem msix_pending (s : State) (f v : Nat) : (s.msix f v).pending = s.pending := by unfold State.msix; split <;> rfl
@[simp] theorem msix_mem (s : State) (f v : Nat) : (s.msix f v).mem = s.mem := by unfold State.msix; split <;> rfl
@[simp] theorem msix_ecc (s : State) (f v : Nat) : (s.msix f v).ecc = s.ecc := by unfold State.msix; split <;> rfl
@[simp] theorem msix_hostMem (s : State) (f v : Nat) : (s.msix f v).hostMem = s.hostMem := by unfold State.msix; split <;> rfl
@[simp] theorem msix_fresh (s : State) (f v : Nat) : (s.msix f v).fresh = s.fresh := by unfold State.msix; split <;> rfl
@[simp] theorem msix_pins (s : State) (f v : Nat) : (s.msix f v).pins = s.pins := by unfold State.msix; split <;> rfl
@[simp] theorem msix_tb (s : State) (f v : Nat) : (s.msix f v).tb = s.tb := by unfold State.msix; split <;> rfl
@[simp] theorem msix_hep (s : State) (f v : Nat) : (s.msix f v).hep = s.hep := by unfold State.msix; split <;> rfl
@[simp] theorem msix_col (s : State) (f v : Nat) : (s.msix f v).col = s.col := by unfold State.msix; split <;> rfl
@[simp] theorem msix_saf (s : State) (f v : Nat) : (s.msix f v).saf = s.saf := by unfold State.msix; split <;> rfl
@[simp] theorem msix_pool (s : State) (f v : Nat) : (s.msix f v).pool = s.pool := by unfold State.msix; split <;> rfl
@[simp] theorem msix_hal (s : State) (f v : Nat) : (s.msix f v).hal = s.hal := by unfold State.msix; split <;> rfl
@[simp] theorem msix_cfg (s : State) (f v : Nat) : (s.msix f v).cfg = s.cfg := by unfold State.msix; split <;> rfl
@[simp] theorem msix_pwt (s : State) (f v : Nat) : (s.msix f v).pwt = s.pwt := by unfold State.msix; split <;> rfl
@[simp] theorem msix_cores (s : State) (f v : Nat) : (s.msix f v).cores = s.cores := by unfold State.msix; split <;> rfl
@[simp] theorem msix_pln (s : State) (f v : Nat) : (s.msix f v).pln = s.pln := by unfold State.msix; split <;> rfl
@[simp] theorem msix_ing (s : State) (f v : Nat) : (s.msix f v).ing = s.ing := by unfold State.msix; split <;> rfl
@[simp] theorem msix_dec (s : State) (f v : Nat) : (s.msix f v).dec = s.dec := by unfold State.msix; split <;> rfl
@[simp] theorem msix_enc (s : State) (f v : Nat) : (s.msix f v).enc = s.enc := by unfold State.msix; split <;> rfl
@[simp] theorem msix_pfe (s : State) (f v : Nat) : (s.msix f v).pfe = s.pfe := by unfold State.msix; split <;> rfl
@[simp] theorem msix_trk (s : State) (f v : Nat) : (s.msix f v).trk = s.trk := by unfold State.msix; split <;> rfl
@[simp] theorem msix_dram (s : State) (f v : Nat) : (s.msix f v).dram = s.dram := by unfold State.msix; split <;> rfl
@[simp] theorem msix_sec (s : State) (f v : Nat) : (s.msix f v).sec = s.sec := by unfold State.msix; split <;> rfl

/-! ### Error events -/

/-- The sticky bit of an event set, and vector 1 where it is due: the part of an event before it goes on its way. -/
theorem raise_rd (s : State) (e : ErrEvent) {a : Nat} (h : a ≠ errReg e.idx e.unit) (h' : a ≠ msixPba 0 1) : (s.raise e).rd a = s.rd a := by
  unfold State.raise
  split
  · rfl
  · dsimp only [State.rd]
    split <;> split <;> first | exact (msix_rd _ _ _ h').trans (rd_setFld_other _ _ _ _ h) | exact rd_setFld_other _ _ _ _ h

@[simp] theorem raise_pending (s : State) (e : ErrEvent) : (s.raise e).pending = s.pending := by unfold State.raise; split; rfl; dsimp only; split <;> split <;> simp
@[simp] theorem raise_mem (s : State) (e : ErrEvent) : (s.raise e).mem = s.mem := by unfold State.raise; split; rfl; dsimp only; split <;> split <;> simp
@[simp] theorem raise_ecc (s : State) (e : ErrEvent) : (s.raise e).ecc = s.ecc := by unfold State.raise; split; rfl; dsimp only; split <;> split <;> simp
@[simp] theorem raise_hostMem (s : State) (e : ErrEvent) : (s.raise e).hostMem = s.hostMem := by unfold State.raise; split; rfl; dsimp only; split <;> split <;> simp
@[simp] theorem raise_fresh (s : State) (e : ErrEvent) : (s.raise e).fresh = s.fresh := by unfold State.raise; split; rfl; dsimp only; split <;> split <;> simp
@[simp] theorem raise_pins (s : State) (e : ErrEvent) : (s.raise e).pins = s.pins := by unfold State.raise; split; rfl; dsimp only; split <;> split <;> simp
@[simp] theorem raise_tb (s : State) (e : ErrEvent) : (s.raise e).tb = s.tb := by unfold State.raise; split; rfl; dsimp only; split <;> split <;> simp
@[simp] theorem raise_hep (s : State) (e : ErrEvent) : (s.raise e).hep = s.hep := by unfold State.raise; split; rfl; dsimp only; split <;> split <;> simp
@[simp] theorem raise_col (s : State) (e : ErrEvent) : (s.raise e).col = s.col := by unfold State.raise; split; rfl; dsimp only; split <;> split <;> simp
@[simp] theorem raise_saf (s : State) (e : ErrEvent) : (s.raise e).saf = s.saf := by unfold State.raise; split; rfl; dsimp only; split <;> split <;> simp
@[simp] theorem raise_pool (s : State) (e : ErrEvent) : (s.raise e).pool = s.pool := by unfold State.raise; split; rfl; dsimp only; split <;> split <;> simp
@[simp] theorem raise_hal (s : State) (e : ErrEvent) : (s.raise e).hal = s.hal := by unfold State.raise; split; rfl; dsimp only; split <;> split <;> simp
@[simp] theorem raise_cfg (s : State) (e : ErrEvent) : (s.raise e).cfg = s.cfg := by unfold State.raise; split; rfl; dsimp only; split <;> split <;> simp
@[simp] theorem raise_pwt (s : State) (e : ErrEvent) : (s.raise e).pwt = s.pwt := by unfold State.raise; split; rfl; dsimp only; split <;> split <;> simp
@[simp] theorem raise_cores (s : State) (e : ErrEvent) : (s.raise e).cores = s.cores := by unfold State.raise; split; rfl; dsimp only; split <;> split <;> simp
@[simp] theorem raise_pln (s : State) (e : ErrEvent) : (s.raise e).pln = s.pln := by unfold State.raise; split; rfl; dsimp only; split <;> split <;> simp
@[simp] theorem raise_ing (s : State) (e : ErrEvent) : (s.raise e).ing = s.ing := by unfold State.raise; split; rfl; dsimp only; split <;> split <;> simp
@[simp] theorem raise_dec (s : State) (e : ErrEvent) : (s.raise e).dec = s.dec := by unfold State.raise; split; rfl; dsimp only; split <;> split <;> simp
@[simp] theorem raise_enc (s : State) (e : ErrEvent) : (s.raise e).enc = s.enc := by unfold State.raise; split; rfl; dsimp only; split <;> split <;> simp
@[simp] theorem raise_pfe (s : State) (e : ErrEvent) : (s.raise e).pfe = s.pfe := by unfold State.raise; split; rfl; dsimp only; split <;> split <;> simp
@[simp] theorem raise_trk (s : State) (e : ErrEvent) : (s.raise e).trk = s.trk := by unfold State.raise; split; rfl; dsimp only; split <;> split <;> simp
@[simp] theorem raise_dram (s : State) (e : ErrEvent) : (s.raise e).dram = s.dram := by unfold State.raise; split; rfl; dsimp only; split <;> split <;> simp
@[simp] theorem raise_sec (s : State) (e : ErrEvent) : (s.raise e).sec = s.sec := by unfold State.raise; split; rfl; dsimp only; split <;> split <;> simp

/-- No error register lies at the PF's pending bits. -/
theorem errReg_ne_pba (idx unit : Nat) : errReg idx unit ≠ 0x18000 := by
  unfold errReg
  split <;> simp only [Reg.mgmtErr, Reg.ingCsiErr, Reg.ingEthErr, Reg.decErr, Reg.encErr, Reg.pfeErr, Reg.tcErr, Reg.memErr, Reg.errPln, Reg.trkErr,
    Reg.colErr, Reg.poolErr, Reg.halErr, Reg.ddrErr, Reg.safErr, Reg.tbErr, Reg.pwtErr, Reg.secErr, Reg.secBootErr] <;> omega

/-- The sticky bit of an event reads 1 (R436), where its unit is not held in reset. -/
theorem raise_bit (s : State) (e : ErrEvent) (h : s.pins.porLow = false) (hb : e.bit < 32) : (s.raise e).bitAt (errReg e.idx e.unit) e.bit = true := by
  have hne : errReg e.idx e.unit ≠ msixPba 0 1 := errReg_ne_pba e.idx e.unit
  have key : (s.setFld (errReg e.idx e.unit) e.bit 1 1).bitAt (errReg e.idx e.unit) e.bit = true := by
    rw [bitAt_setFld_same _ _ _ _ _ _ (by omega)]; simp
  unfold State.raise
  simp only [h, Bool.false_and, Bool.false_eq_true, if_false]
  have both : ∀ c : Bool, (if c = true then (s.setFld (errReg e.idx e.unit) e.bit 1 1).msix 0 1 else s.setFld (errReg e.idx e.unit) e.bit 1 1).bitAt (errReg e.idx e.unit) e.bit = true := by
    intro c
    cases c
    · exact key
    · exact (congrArg (fun v => bit v e.bit) (msix_rd (s.setFld (errReg e.idx e.unit) e.bit 1 1) 0 1 hne)).trans key
  exact both _

/-- The event that goes on its way to the ERR block, stamped (R436, R44). -/
theorem raise_pend (s : State) (e : ErrEvent) (h : s.pins.porLow = false) : (s.raise e).err.pend = s.err.pend ++ [{ e with tb := s.now }] := by
  unfold State.raise
  simp only [h, Bool.false_and, Bool.false_eq_true, if_false]
  split <;> split <;> simp

/-! ### The copies -/

/-- The copies as their four writes. -/
theorem mirror_wr (s : State) : ∃ n, s.mirror = (((s.setFld Reg.safStatus 1 1 (b2n s.pins.faultN)).setFld Reg.mgmtStatus 6 1 (b2n s.pins.faultN)).setFld
    Reg.mgmtStatus 5 1 (s.fld Reg.safStatus 4 1)).wr Reg.errSummary n := ⟨_, rfl⟩

/-- The copies leave the low five bits of MGMT_STATUS, its state among them. -/
theorem mirror_low (y : State) : (y.mirror).fld Reg.mgmtStatus 0 5 = y.fld Reg.mgmtStatus 0 5 := by
  obtain ⟨n, h⟩ := mirror_wr y
  rw [h]
  generalize y.fld Reg.safStatus 4 1 = a
  generalize b2n y.pins.faultN = b
  have e1 : ∀ z : State, (z.wr Reg.errSummary n).fld Reg.mgmtStatus 0 5 = z.fld Reg.mgmtStatus 0 5 := by
    intro z; unfold State.fld; rw [rd_wr_other z _ (by decide)]
  have e2 : ∀ z : State, (z.setFld Reg.safStatus 1 1 b).fld Reg.mgmtStatus 0 5 = z.fld Reg.mgmtStatus 0 5 := by
    intro z; unfold State.fld; rw [rd_setFld_other z _ _ _ (by decide)]
  rw [e1, fld_setFld_apart _ _ _ _ _ _ _ (by decide) (by decide), fld_setFld_apart _ _ _ _ _ _ _ (by decide) (by decide), e2]

end Sys2Proof.Laws
end

