-- ==== Sys2Proof/WellFormed.lean ====
section
/-!
DEFINITION. Well-formed commands: the relations between operands that their types do not state (lengths of lists, byte strings within their length, operands that exclude each other).
-/
namespace Sys2Proof

/-- What a start meets: byte strings within their length, at most 36 lanes (four channels of nine). -/
def startFactsWf (t : StartFacts) : Bool :=
  (match t.flash with | some b => b.wf | none => true) && t.flash2.wf && decide (t.lanes.length ≤ 36) && decide (t.vref.length ≤ 36)

/-- Is a command one that the hardware can be given? -/
def Instr.wellFormed : Instr → Bool
  | .telltaleRead rs => decide (rs.length = 102)
  | .fuseeLoopTick _ => true
  | .avsFrameFailure _ => true
  | .avsRetry _ _ => true
  | .avsStatusFault _ => true
  | .railDeviation _ _ => true
  | .railLow _ _ => true
  | .avsFrozenStatusRetry _ _ => true
  | .powerDomainRequest _ _ => true
  | .powerDomainTransitionDone _ => true
  | .reefingEvaluation _ _ _ _ => true
  | .pwtPowerCapWrite _ => true
  | .temperatureSensorRead ts => decide (ts.length = 12)
  | .sensorFail _ => true
  | .thermalShutdown => true
  | .tbCopyDisagree _ => true
  | .tbNoMajority => true
  | .refclkLoss => true
  | .tbAdjRateWrite _ => true
  | .tbAdjOffsetWrite _ => true
  | .tbSetWrite _ => true
  | .tbSlewComplete => true
  | .timePpsEdge => true
  | .streamStart _ _ => true
  | .streamStop _ _ => true
  | .streamReturnIdle _ => true
  | .csi2FrameStart _ _ _ _ _ => true
  | .csi2LinePacket _ _ _ wc _ _ data _ => data.wf && decide (data.len = wc.toNat)
  | .csi2EmbeddedPacket _ _ _ _ data => data.wf
  | .csi2FrameEnd _ _ _ => true
  | .csi2HeaderUncorrectable _ => true
  | .csi2LaneSyncError _ => true
  | .ethLinkChange _ _ _ => true
  | .ethFrameReceive _ fr => fr.pieces.all (fun p => p.data.wf)
  | .packetDeclaredLost _ => true
  | .bpDecisionAtVclHeader _ _ _ => true
  | .ingEthClassWrite _ _ _ => true
  | .pushAu _ _ => true
  | .pushAuReadDone _ _ data => data.wf
  | .pictureStart _ _ => true
  | .blockRowReconstructed _ _ rows => rows.all (fun r => r.luma.wf && r.chroma.wf)
  | .rowLimitExpiry _ => true
  | .pictureBudgetExpiry _ => true
  | .dualRowCrcCompare _ => true
  | .checkerLag _ => true
  | .encSessDescWrite _ _ _ _ => true
  | .start _ _ => true
  | .stop _ _ => true
  | .trigger _ _ => true
  | .snippetTriggerEvent _ _ => true
  | .encSourcePicture _ => true
  | .encRowStart _ => true
  | .encSliceCoded _ data => data.wf
  | .postWindowExpiry _ => true
  | .sourceLost _ => true
  | .viewDescriptorWrite _ _ _ _ => true
  | .frontEndFrameStart _ => true
  | .bandStart _ => true
  | .bandDone _ => true
  | .bandLimitExpiry _ => true
  | .bandCheckCompare _ _ => true
  | .tileDescriptorWrite _ _ _ facts => facts.aux.wf
  | .escapementSlotStart ready => decide (ready.length = 8)
  | .tileIssue _ => true
  | .tileRejectResponse => true
  | .tileWaitsMet _ => true
  | .weightLoadDone _ _ => true
  | .tileBeatsDone _ _ => true
  | .wavefrontMismatch _ _ _ _ => true
  | .sequencerParityError _ phase => decide (2 ≤ phase.val)
  | .epilogueDone _ outs => outs.all (fun o => o.body.ok)
  | .tileClose _ => true
  | .haloWrite _ _ => true
  | .tileWatchdogExpiry _ => true
  | .stepStart _ => true
  | .jobPlan _ _ ext _ cut _ => decide (ext.length = 4) && cut.tiles.all (fun t => t.facts.aux.wf)
  | .trackerFrame _ => true
  | .trackerCompare _ _ => true
  | .trackerStageLimit _ => true
  | .trackerDescWrite _ _ _ => true
  | .recordStage _ => true
  | .collectorTurn => true
  | .frameRelease _ _ => true
  | .frameCloseTimeout _ => true
  | .ringStallTimeout _ => true
  | .colStrmQueryWrite _ _ => true
  | .signal _ _ _ => true
  | .reset _ _ => true
  | .watchArm _ _ v => v.getLsbD 18
  | .watchCopyDone _ _ data => data.wf
  | .queueDescriptorWrite _ _ _ _ => true
  | .doorbellWrite _ _ _ => true
  | .reservation _ _ pairs => decide (0 < pairs.length) && decide (pairs.length ≤ 8)
  | .reservationGrant => true
  | .reservationAged => true
  | .share _ _ _ _ _ => true
  | .drop _ _ _ => true
  | .free _ _ _ => true
  | .poolThresholdWrite _ _ => true
  | .poolBufQueryWrite _ _ => true
  | .memoryAccess _ q => decide (0 < q.len)
  | .dmaStarve _ _ => true
  | .memDmaResumeWrite _ _ => true
  | .alertN _ _ _ => true
  | .ddrRefresh _ => true
  | .selfRefreshEntry _ _ => true
  | .zqCalibration _ _ => true
  | .scrubStart => true
  | .scrubAbort _ => true
  | .scrubPassDone => true
  | .detectedFault => true
  | .controlPairMismatch _ => true
  | .heartbeatMissing _ => true
  | .waitAudit => true
  | .selfTestChunk _ _ => true
  | .testOverdue _ => true
  | .faultNTestWrite _ => true
  | .partitionProcessingStart p vfs ctl => decide (vfs = none ∨ p = 0) && ctl.all (fun c => c.bme)
  | .partitionProcessingStop p vfs => decide (vfs = none ∨ p = 0)
  | .unsupportedRequest _ kind _ _ posted => decide (posted = false ∨ kind = 6)
  | .registerWrite _ _ _ data => data.wf
  | .msixUnmask _ _ => true
  | .busMasterEnableClear _ _ => true
  | .powerOn _ _ => true
  | .perstNAssert => true
  | .coldStart t => startFactsWf t
  | .hotReset _ => true
  | .pfFlr => true
  | .vfFlr f => decide (f ≠ 0)
  | .restart t _ => startFactsWf t
  | .powerOff => true
  | .porNAssert => true
  | .nop _ _ => true
  | .getInfo _ _ => true
  | .loadModel _ _ _ b => b.wf
  | .unloadModel _ _ => true
  | .bind _ _ => true
  | .unbind _ _ => true
  | .restructure _ _ _ b => b.wf
  | .calCommit _ _ _ => true
  | .selfTestFull _ _ _ => true
  | .supplyImage _ _ t _ b b2 => startFactsWf t && b.wf && b2.wf
  | .attest _ _ => true
  | .jtagChallenge _ _ => true
  | .jtagResponse _ _ => true
  | .longCommandEnd _ => true
  | .job _ _ => true
  | .roiListFetch _ _ => true
  | .submissionFetchError _ => true
  | .ecrcCheckFailure _ => true
  | .smbusReadStatus => true
  | .smbusReadFaultCause => true
  | .smbusReadTempMax => true
  | .smbusReadTempSensor _ => true
  | .smbusReadPowerNow => true
  | .smbusReadPowerCap => true
  | .smbusReadVddArray => true
  | .smbusReadVddLogic => true
  | .smbusReadReefState => true
  | .smbusReadTb => true
  | .smbusReadId => true
  | .smbusReadFaultRecord => true
  | .smbusResetArm _ => true
  | .smbusResetRequest _ => true
  | .secCalShadowWrite _ _ => true
  | .revokeSlot _ _ => true
  | .advanceRollback _ => true
  | .disableJtag _ => true
  | .fuseBurnComplete _ => true
  | .jtagChallengeExpiry => true
  | .secJtagRelockWrite _ => true
  | .errorEvent _ => true
  | .stickyBitClear _ _ _ _ => true
  | .errFirstStatusWrite _ _ => true
  | .ulpsEntryExit _ _ _ _ => true

end Sys2Proof
end

