-- ==== Sys2Proof/Tests/Slice0.lean ====
section
/-!
SUPPORT. The model's own tests: an ill-formed command for every check of WellFormed, a state that meets the hypotheses of every statement, and single commands on small states with results that the manual gives.
-/
namespace Sys2Proof.Tests
open Sys2Proof Sys2Proof.Machine

/-! ### Small states -/

/-- The state after the first READY, as far as the blocks that sleep before it need it. -/
def up : State := { State.reset with sec := { State.reset.sec with started := true } }

/-- Registers given values. -/
def put (s : State) (l : List (Nat × Nat)) : State := l.foldl (fun x e => x.wr e.1 e.2) s

/-- `up` with MGMT_STATUS.state READY. -/
def ready : State := put up [(Reg.mgmtStatus, 0x45)]

/-- The reset state with RESTARTING's predecessor: PERST_N low. -/
def held : State := { State.reset with pins := { State.reset.pins with perstLow := true } }

/-- The state that a command answers. -/
def after (c : Instr) (s : State) : State := match exec c s with | .next t => t | _ => s

/-- A tile of partition 1 whose kind is reserved. -/
def badTile : Tile := { desc := BitVec.ofNat 1024 (1 + 3 <<< 12) }

/-- Core 0 with that tile at the head of its FIFO, and every slot of the core owned by the tile's partition. -/
def rejecting : State :=
  let s := put up [(Reg.mgmtFuncState, 0xFFFF0001)]
  { s with cores := [(0, { fifo := [badTile] })], pln := { s.pln with slots := [(0, badTile.part)] } }

/-- A byte string too long for its length. -/
def longBlob : Blob := { len := 1, val := 256 }

/-- An error event on its way. -/
def oneEvent : ErrEvent := { idx := 15, unit := 0, bit := 3 }

/-! ### Commands that WellFormed refuses, one per check -/

theorem test_wf_telltale_count : Instr.wellFormed (.telltaleRead [(1, 1)]) = false := by decide
theorem test_wf_temperature_count : Instr.wellFormed (.temperatureSensorRead []) = false := by decide
theorem test_wf_line_word_count : Instr.wellFormed (.csi2LinePacket 0 0 0x2A 4 true false { len := 2, val := 7 } false) = false := by decide
theorem test_wf_embedded_bytes : Instr.wellFormed (.csi2EmbeddedPacket 0 0 true false longBlob) = false := by decide
theorem test_wf_push_bytes : Instr.wellFormed (.pushAuReadDone 0 true longBlob) = false := by decide
theorem test_wf_row_bytes : Instr.wellFormed (.blockRowReconstructed 0 1 [{ lost := none, luma := longBlob, chroma := { len := 0, val := 0 } }]) = false := by decide
theorem test_wf_slice_bytes : Instr.wellFormed (.encSliceCoded 0 longBlob) = false := by decide
theorem test_wf_parameter_bytes : Instr.wellFormed (.tileDescriptorWrite 0 0 0 { aux := longBlob }) = false := by decide
theorem test_wf_slot_ready_count : Instr.wellFormed (.escapementSlotStart []) = false := by decide
theorem test_wf_parity_phase : Instr.wellFormed (.sequencerParityError 0 1) = false := by decide
theorem test_wf_output_points : Instr.wellFormed (.epilogueDone 0 [{ sample := 0, body := .landmarks [] }]) = false := by decide
theorem test_wf_extent_count : Instr.wellFormed (.jobPlan 0 0 [1, 2] true {} []) = false := by decide
theorem test_wf_arm_bit : Instr.wellFormed (.watchArm 0 0 0) = false := by decide
theorem test_wf_watch_bytes : Instr.wellFormed (.watchCopyDone 0 true longBlob) = false := by decide
theorem test_wf_no_pairs : Instr.wellFormed (.reservation 0 0 []) = false := by decide
theorem test_wf_empty_access : Instr.wellFormed (.memoryAccess [] { part := 0, holder := 0, addr := 0, len := 0 }) = false := by decide
theorem test_wf_start_vfs_of_vf : Instr.wellFormed (.partitionProcessingStart 1 (some 3) none) = false := by decide
theorem test_wf_start_clears_bme : Instr.wellFormed (.partitionProcessingStart 1 none (some { bme := false })) = false := by decide
theorem test_wf_stop_vfs_of_vf : Instr.wellFormed (.partitionProcessingStop 1 (some 0)) = false := by decide
theorem test_wf_posted_completion : Instr.wellFormed (.unsupportedRequest 0 0 0 0 true) = false := by decide
theorem test_wf_write_bytes : Instr.wellFormed (.registerWrite 0 0 0 longBlob) = false := by decide
theorem test_wf_flash_bytes : Instr.wellFormed (.coldStart { flash := some longBlob }) = false := by decide
theorem test_wf_lane_count : Instr.wellFormed (.restart { lanes := List.replicate 37 0 } none) = false := by decide
theorem test_wf_flr_of_pf : Instr.wellFormed (.vfFlr 0) = false := by decide
theorem test_wf_package_bytes : Instr.wellFormed (.loadModel 0 0 true longBlob) = false := by decide
theorem test_wf_image_bytes : Instr.wellFormed (.restructure 0 0 true longBlob) = false := by decide
theorem test_wf_accepts : Instr.wellFormed (.reservation 0 0 [(3, 1)]) = true ∧ Instr.wellFormed (.temperatureSensorRead (List.replicate 12 50)) = true := by decide

/-! ### No word spells a command -/

theorem test_no_word_spells_a_command : decodeTableWord 32 0 = none ∧ State.reset.withFetchWord 32 0 = State.reset := ⟨rfl, rfl⟩

/-! ### A state for the hypotheses of every statement that has any

The statements whose only hypothesis is that VDD_AON is up, that the units are out of reset, that a function answers, or that the first READY is past are met by the state of `test_hyp_CommandsHaveTheirEffect`. -/

theorem test_hyp_EmptyQueueGivesOneRefclkCycle : ∃ s : State, s.pending = [] ∧ s.dram.waiting = [] ∧ s.tb.held = false := ⟨up, by decide⟩

theorem test_hyp_CopiesHoldAfterEveryStep : ∃ s t : State, step s = .next t := ⟨State.reset, _, rfl⟩

theorem test_hyp_TelltaleReadingIsTheSlower : ∃ (s : State) (rs : List (BitVec 16 × BitVec 16)), s.pins.aonUp = true ∧ rs.length = 102 := ⟨up, List.replicate 102 (90, 77), by decide, List.length_replicate⟩

theorem test_hyp_PowerCapWriteIsTakenOrRefused : ∃ s : State, s.fnLive 0 = true := ⟨up, by decide⟩

theorem test_hyp_AvsFramesRetryOnceThenFreeze_idle : ∃ (s : State) (rail : Fin 2), s.pins.aonUp = true ∧ s.pins.porLow = false ∧ (s.rail rail).retryDue = none := ⟨up, 1, by decide⟩

theorem test_hyp_AvsFramesRetryOnceThenFreeze_due : ∃ (s : State) (rail : Fin 2), s.pins.aonUp = true ∧ s.pins.porLow = false ∧ (s.rail rail).retryDue.isSome = true := ⟨after (.avsFrameFailure 1) up, 1, by decide⟩

theorem test_hyp_AvsFramesRetryOnceThenFreeze_frozen : ∃ (s : State) (rail : Fin 2), s.pins.aonUp = true ∧ s.pins.porLow = false ∧ s.frozen rail = true ∧ 1 ≤ (s.rail rail).goodReads := ⟨after (.avsFrozenStatusRetry 1 true) (after (.avsRetry 1 false) (after (.avsFrameFailure 1) up)), 1, by decide⟩

theorem test_hyp_ThermalShutdownDropsTheRails : ∃ s : State, s.pins.aonUp = true ∧ s.pins.porLow = false ∧ s.pwt.shutdown = false := ⟨up, by decide⟩

theorem test_hyp_TimeBaseWritesAreTakenOrRefused : ∃ s : State, s.fnLive 0 = true ∧ s.anyActive = false := ⟨up, by decide⟩

theorem test_hyp_PpsEdgeIsCapturedAndCounted : ∃ s s2 s3 : State, s.pins.aonUp = true ∧ s.ppsMode = 0 ∧ s2.pins.aonUp = true ∧ s2.ppsMode = 1 ∧ s3.pins.aonUp = true ∧ s3.ppsMode = 3 := ⟨put up [(Reg.tbCtrl, 0)], put up [(Reg.tbCtrl, 1 <<< 12)], put up [(Reg.tbCtrl, 3 <<< 12)], by decide⟩

theorem test_hyp_DisabledCsiPortChangesNothing : ∃ (s : State) (port : Fin 8), s.bitAt (Reg.ingCsiCtrl port) 0 = false := ⟨up, 7, by decide⟩

theorem test_hyp_BadCsiHeaderIsCountedAgainstNoStream : ∃ (s : State) (port : Fin 8), s.live = true ∧ s.bitAt (Reg.ingCsiCtrl port) 0 = true := ⟨put up [(Reg.ingCsiCtrl 7, 1)], 7, by decide⟩

theorem test_hyp_ClassEntryTakesEffectWithItsFirstWord : ∃ s : State, s.fnLive 0 = true ∧ s.sec.started = true := ⟨up, by decide⟩

theorem test_hyp_BusyDescriptorsAreLeftAlone : ∃ s : State, s.sec.started = true ∧ s.fnLive 0 = true ∧ s.sessState 15 ≠ 0 ∧ s.stRun 95 ≠ 0 ∧ s.trkOn 95 = true := ⟨put up [(Reg.encSessState 15, 1), (Reg.ingStrmState 95, 1), (Reg.trkStrmDesc 95, 1)], by decide⟩

theorem test_hyp_EverySlotStartsOnEveryCore : ∃ s : State, s.live = true := ⟨up, by decide⟩

theorem test_hyp_RejectedDescriptorLeavesTheFifo : ∃ (s : State) (core : Fin 8) (x : Tile) (rest : List Tile) (code : Nat), s.live = true ∧ (s.core core).fifo = x :: rest ∧ (s.core core).wait1 = none ∧ s.isGranted core x.part = true ∧ s.issueCode core x = some code := ⟨rejecting, 0, badTile, [], 1, by decide +kernel⟩

theorem test_hyp_RejectInClassSIsAFault : ∃ (s : State) (r : Reject) (rest : List Reject), s.live = true ∧ s.pln.rejects = r :: rest ∧ s.classS r.tile.part = true := ⟨{ put up [(Reg.safPart badTile.part, 1)] with pln := { up.pln with rejects := [{ pair := 0, core := 0, code := 1, tile := badTile }] } }, { pair := 0, core := 0, code := 1, tile := badTile }, [], by decide +kernel⟩

theorem test_hyp_FrameQueryAnswersFromTheCloses_open : ∃ (s : State) (st : Fin 96) (v : Word), s.fnLive 0 = true ∧ s.sec.started = true ∧ s.frameOpen st v.toNat = true := ⟨{ up with col := { up.col with frames := [(95, [{ counter := 4, ts := 0 }])], closed := [(95, [{ counter := 2, cause := 0, withdrawn := false }])] } }, 95, 4, by decide⟩

theorem test_hyp_FrameQueryAnswersFromTheCloses_kept : ∃ (s : State) (st : Fin 96) (v : Word) (c : ClosedFrame), s.fnLive 0 = true ∧ s.sec.started = true ∧ s.frameOpen st v.toNat = false ∧ (s.closes st).isEmpty = false ∧ (v.toNat + 2 ^ 32 - s.rd (Reg.colStrmLastClose st)) % 2 ^ 32 = 0 ∧ (s.closes st).find? (fun c => c.counter = v.toNat) = some c := ⟨put { up with col := { up.col with frames := [(95, [{ counter := 4, ts := 0 }])], closed := [(95, [{ counter := 2, cause := 0, withdrawn := false }])] } } [(Reg.colStrmLastClose 95, 2)], 95, 2, { counter := 2, cause := 0, withdrawn := false }, by decide⟩

theorem test_hyp_FrameQueryAnswersFromTheCloses_unknown : ∃ (s : State) (st : Fin 96) (v : Word), s.fnLive 0 = true ∧ s.sec.started = true ∧ s.frameOpen st v.toNat = false ∧ (s.closes st).isEmpty = false ∧ 2 ^ 31 ≤ (v.toNat + 2 ^ 32 - s.rd (Reg.colStrmLastClose st)) % 2 ^ 32 ∧ (s.closes st).find? (fun c => c.counter = v.toNat) = none := ⟨put { up with col := { up.col with frames := [(95, [{ counter := 4, ts := 0 }])], closed := [(95, [{ counter := 2, cause := 0, withdrawn := false }])] } } [(Reg.colStrmLastClose 95, 2)], 95, 1, by decide⟩

theorem test_hyp_SignalRaisesAndSaturates : ∃ (s : State) (n : BitVec 16), s.live = true ∧ s.hal.lateReset = [] ∧ n.toNat ≠ noSync := ⟨up, 0xFFFE, by decide⟩

theorem test_hyp_ResetOfAWaitedObjectIsRefused_outside : ∃ (s : State) (f : Fin 16) (n : BitVec 16), s.fnLive f = true ∧ s.sec.started = true ∧ s.hal.lateReset = [] ∧ n.toNat ≠ noSync ∧ s.inSyncRange f n.toNat = false := ⟨up, 0, 9, by decide⟩

theorem test_hyp_ResetOfAWaitedObjectIsRefused_waited : ∃ (s : State) (f : Fin 16) (n : BitVec 16), s.fnLive f = true ∧ s.sec.started = true ∧ s.hal.lateReset = [] ∧ n.toNat ≠ noSync ∧ s.inSyncRange f n.toNat = true ∧ s.waitNames n.toNat = true := ⟨{ put up [(Reg.halRangeSync 0, 16 <<< 16)] with cores := [(0, { prep := some { desc := BitVec.ofNat 1024 (9 <<< 896) } })] }, 0, 9, by decide +kernel⟩

theorem test_hyp_ResetOfAWaitedObjectIsRefused_free : ∃ (s : State) (f : Fin 16) (n : BitVec 16), s.fnLive f = true ∧ s.sec.started = true ∧ s.hal.lateReset = [] ∧ n.toNat ≠ noSync ∧ s.inSyncRange f n.toNat = true ∧ s.waitNames n.toNat = false := ⟨put up [(Reg.halRangeSync 0, 16 <<< 16)], 0, 9, by decide⟩

theorem test_hyp_DoorbellMovesItsIndexOrIsRefused_submission : ∃ (s : State) (f : Fin 16) (q : Fin 16384) (v : Word), s.fnLive f = true ∧ s.sec.started = true ∧ s.qOwner q = f ∧ s.qAllocated q = true ∧ s.qEnabled q = true ∧ s.qType q = 0 ∧ s.qSize q < (v.toNat + 2 ^ 32 - s.qP q) % 2 ^ 32 := ⟨put up [(Reg.halQueueDesc 5, 0x604)], 0, 5, 65, by decide⟩

theorem test_hyp_DoorbellMovesItsIndexOrIsRefused_result : ∃ (s : State) (f : Fin 16) (q : Fin 16384) (v : Word), s.fnLive f = true ∧ s.sec.started = true ∧ s.qOwner q = f ∧ s.qAllocated q = true ∧ s.qEnabled q = true ∧ s.qType q = 1 ∧ s.qHeld q < (v.toNat + 2 ^ 32 - s.qC q) % 2 ^ 32 := ⟨put up [(Reg.halQueueDesc 5, 0x605)], 0, 5, 1, by decide⟩

theorem test_hyp_ReservationThatCannotBeGrantedWaits : ∃ (s : State) (tag : Fin 16) (holder : BitVec 8) (pairs : List (Fin 256 × BitVec 16)), s.live = true ∧ s.classS tag = false ∧ s.tryReserve tag holder.toNat (pairs.map (fun p => (p.1.val, p.2.toNat))) = none := ⟨up, 1, 0x10, [(3, 1)], by decide⟩

theorem test_hyp_WriteStoresItsBytesAndNoOther : ∃ (s : State) (q : MemReq), s.live = true ∧ q.write = true ∧ innerReader q.reader = false ∧ s.mapped q.addr = true ∧ s.mapped (q.addr + (q.len - 1)) = true ∧ (memKind q.addr = some 0 ∨ memKind q.addr = some 1 ∨ memKind q.addr = some 2) ∧ s.granted2 q.part.toNat q.addr q.len = true ∧ s.granted2 q.part.toNat (q.addr + (q.len - 1)) 1 = true ∧ (q.dma = true → s.bankOn q.addr = true ∧ s.pdState (bankDomain q.addr) ≠ 0) ∧ (memKind q.addr = some 0 → s.chState (s.chanOf q.addr) ≠ 3) ∧ s.ecc = [] ∧ s.dram.waiting = [] ∧ s.admissible q = true := ⟨{ up with cfg := { up.cfg with sbanks := [(1, 0x80000000)] } }, { part := 1, holder := 0x10, write := true, addr := 0x1000F80000, len := 4, data := 7 }, by decide⟩

theorem test_hyp_WriteStoresItsBytesAndNoOther_waits : ∃ (s : State) (q : MemReq), s.live = true ∧ q.write = true ∧ innerReader q.reader = false ∧ s.mapped q.addr = true ∧ s.mapped (q.addr + (q.len - 1)) = true ∧ (memKind q.addr = some 0 ∨ memKind q.addr = some 1 ∨ memKind q.addr = some 2) ∧ s.granted2 q.part.toNat q.addr q.len = true ∧ s.granted2 q.part.toNat (q.addr + (q.len - 1)) 1 = true ∧ (q.dma = true → s.bankOn q.addr = true ∧ s.pdState (bankDomain q.addr) ≠ 0) ∧ (memKind q.addr = some 0 → s.chState (s.chanOf q.addr) ≠ 3) ∧ s.ecc = [] ∧ s.dram.waiting = [] ∧ s.admissible q = false := ⟨{ put up [(Reg.ddrPop, 1)] with cfg := { up.cfg with windows := [(1, [(0, 0x100000)])], parts := [(1, BitVec.ofNat 512 (4 <<< 160))] } }, { part := 1, holder := 0x10, write := true, addr := 64, len := 4, data := 7 }, by decide +kernel⟩

theorem test_hyp_DmaResumeClearsTheBitsItMay : ∃ (s : State) (f : Fin 16), s.fnLive f = true ∧ s.sec.started = true ∧ f ≠ 0 := ⟨put up [(Reg.mgmtFuncState, 3)], 1, by decide⟩

theorem test_hyp_IdleRankEntersSelfRefresh : ∃ (s : State) (ch : Fin 4) (rank : Fin 2), s.live = true ∧ s.chState ch = 2 ∧ s.rankState ch rank = 0 := ⟨put up [(Reg.ddrChStatus 3, 2)], 3, 1, by decide⟩

theorem test_hyp_FaultNTestAssertsFaultN_active : ∃ s : State, s.fnLive 0 = true ∧ s.sActive = true := ⟨put up [(Reg.safStatus, 1)], by decide⟩

theorem test_hyp_FaultNTestAssertsFaultN_inactive : ∃ (s : State) (v : Word), s.fnLive 0 = true ∧ s.sActive = false ∧ v.getLsbD 0 = true := ⟨up, 1, by decide⟩

theorem test_hyp_UnmaskedVectorFiresOnce : ∃ s : State, s.fnLive 0 = true ∧ s.canIssue 0 = true := ⟨{ up with hep := { up.hep with bme := 1 } }, by decide⟩

theorem test_hyp_BadWritesAreDiscarded_size : ∃ (s : State) (f : Fin 16) (o : BitVec 28) (data : Blob), s.fnLive f = true ∧ tlpOk o.toNat data.len = false := ⟨up, 0, 0x100002, { len := 4, val := 0 }, by decide⟩

theorem test_hyp_BadWritesAreDiscarded_asleep : ∃ (s : State) (o : BitVec 28) (ro : Bool), s.fnLive 0 = true ∧ o.toNat % 4 = 0 ∧ s.sec.started = false ∧ 0x500000 ≤ o.toNat ∧ o.toNat < 0x1100000 ∧ s.place 0 0 o.toNat = .reg o.toNat ro := ⟨State.reset, 0x500000, false, by decide⟩

theorem test_hyp_BusyMailboxIgnoresCommands : ∃ (s : State) (f : Fin 16), s.fnLive f = true ∧ s.mbxState f = 1 := ⟨put up [(Reg.mgmtMbxStatus 0, 1)], 0, by decide⟩

theorem test_hyp_NopAndGetInfoEndAtOnce : ∃ (s : State) (f : Fin 16), s.fnLive f = true ∧ s.mbxState f ≠ 1 := ⟨up, 0, by decide⟩

theorem test_hyp_CommandsBeforeReadyEndWithWrongState : ∃ (s : State) (f : Fin 16), s.fnLive f = true ∧ s.mbxState f ≠ 1 ∧ s.devState ≠ 5 ∧ f ≠ 0 := ⟨put up [(Reg.mgmtFuncState, 3)], 1, by decide⟩

theorem test_hyp_SmbusTargetAnswers : ∃ s : State, s.pins.aonUp = true ∧ s.pins.porLow = false ∧ 20000000 ≤ s.now := ⟨{ up with tb := { c0 := 20000000 <<< 32, c1 := 20000000 <<< 32, c2 := 20000000 <<< 32 } }, by decide⟩

theorem test_hyp_PowerOffKeepsTheFusesAlone : ∃ s : State, s.pins.aonUp = true ∧ s.sec.burn = none ∧ s.mbxRun 0 = none := ⟨up, by decide⟩

theorem test_hyp_HotResetBeginsARestart : ∃ s : State, s.live = true ∧ s.devState = 5 := ⟨ready, by decide⟩

theorem test_hyp_HeldUnitsIgnoreTheirEvents : ∃ s : State, s.live = false := ⟨held, by decide⟩

theorem test_hyp_FuseRequestsAreCheckedInOrder : ∃ s : State, s.fnLive 0 = true ∧ s.sec.burn = none ∧ s.devState = 5 ∧ s.sActive = false ∧ s.calBurning = false := ⟨ready, by decide⟩

theorem test_hyp_BurnOfASlotRevokesIt : ∃ (s : State) (slot : Fin 4), s.pins.aonUp = true ∧ s.sec.burn = some (1, slot.val) := ⟨{ ready with sec := { ready.sec with burn := some (1, 3) } }, 3, by decide⟩

theorem test_hyp_ChallengeExpiresAndTapRelocks : ∃ (s : State) (ch tb : Nat), s.pins.aonUp = true ∧ s.sec.challenge = some (ch, tb) ∧ s.fnLive 0 = true ∧ s.jtag = 1 := ⟨{ put up [(Reg.secStatus, 1)] with sec := { up.sec with challenge := some (7, 0) } }, 7, 0, by decide⟩

theorem test_hyp_FirstStatusWriteReArmsTheCapture : ∃ (s : State) (idx : Fin 19) (unit : Fin 16) (e : ErrEvent) (v : Word), s.fnLive 0 = true ∧ v.getLsbD 0 = true ∧ (errUnits idx).contains unit.val = true ∧ s.unitsAsleep (errReg idx unit) = false ∧ s.err.pend = [e] ∧ e.idx < 19 ∧ e.tb < 2 ^ 64 := ⟨{ up with err := { pend := [oneEvent] } }, 2, 9, oneEvent, 1, by decide⟩

theorem test_hyp_StickyBitOutlivesItsClear_clear : ∃ (s : State) (idx : Fin 19) (unit : Fin 16) (e : EventFacts), s.fnLive 0 = true ∧ s.pins.aonUp = true ∧ s.err.pend = [] ∧ unit.val = errCopy idx e.unit.toNat ∧ (errUnits idx).contains unit.val = true ∧ s.unitsAsleep (errReg idx unit) = false := ⟨up, 1, 7, { unit := 7, bit := 31 }, by decide⟩

theorem test_hyp_StickyBitOutlivesItsClear_capture : ∃ (s : State) (v : Word) (e : ErrEvent), s.fnLive 0 = true ∧ s.pins.aonUp = true ∧ v.getLsbD 0 = true ∧ s.err.pend = [e] ∧ e.idx < 19 ∧ e.addr < 2 ^ 64 ∧ e.tb < 2 ^ 64 := ⟨{ up with err := { pend := [oneEvent] } }, 1, oneEvent, by decide⟩

theorem test_hyp_StartCommandsHaveTheirEffect : ∃ s : State, s.pins.porLow = true := ⟨{ State.reset with pins := { State.reset.pins with porLow := true } }, by decide⟩

theorem test_hyp_CommandsHaveTheirEffect : ∃ s : State, s.live = true ∧ s.pins.aonUp = true ∧ s.fnLive 0 = true ∧ s.sec.started = true := ⟨up, by decide⟩

/-! ### Single commands, with results of the manual -/

/-- R38. -/
theorem test_cap_accepted : (after (.pwtPowerCapWrite 30000) up).rd Reg.pwtPowerCap = 30000 := by decide +kernel

/-- R38: CAP_RANGE above 40,000 mW. -/
theorem test_cap_out_of_range : (after (.pwtPowerCapWrite 40001) up).rd Reg.pwtPowerCap = 28000 ∧ (after (.pwtPowerCapWrite 40001) up).rd Reg.pwtCapResult = 1 := by decide +kernel

set_option maxRecDepth 4000 in
/-- R26. -/
theorem test_telltale_takes_the_slower : (after (.telltaleRead (List.replicate 102 (90, 77))) up).rd (Reg.pwtTtRate 101) = 77 := by decide +kernel

/-- R45: 12.5 ppm is 0x0020_C49C units of 2⁻³² ns. -/
theorem test_rate_of_the_worked_example : (after (.tbAdjRateWrite 12500) up).rd64 Reg.tbIncr = 0x280020C49C := by decide +kernel

/-- R45. -/
theorem test_offset_of_the_worked_example : (after (.tbAdjOffsetWrite 3200) up).rd Reg.tbSlewRemain = 3200 := by decide +kernel

/-- R45. -/
theorem test_slew_is_not_lost : (after .tbSlewComplete (after (.tbAdjOffsetWrite 3200) up)).rd Reg.tbSlewRemain = 3200 := by decide +kernel

/-- Table 1.1. -/
theorem test_safety_mcu_is_of_SAF : controlSubsys 2 = 14 := by decide

/-- R43. -/
theorem test_tick_adds_40_ns : (match step State.reset with | .next s => s.now | _ => 0) = 40 := by decide +kernel

/-- R351: before 20 ms. -/
theorem test_smbus_early : (after .smbusReadTb up).out = [.smbusNack] := by decide +kernel

/-- R250. -/
theorem test_signal_adds : (after (.signal none 9 3) up).syncVal 9 = 3 := by decide +kernel

/-- R345: DONE, tag 0x5A, OK, progress 100. -/
theorem test_nop_is_done : (after (.nop 0 0x5A) up).rd (Reg.mgmtMbxStatus 0) = 0x64005A02 := by decide +kernel

/-- R381: WRONG_STATE. -/
theorem test_bind_before_ready : (after (.bind 0 1) up).fld (Reg.mgmtMbxStatus 0) 16 8 = 6 := by decide +kernel

/-- R400: BAD_REQUEST. -/
theorem test_fuse_without_confirm : (after (.revokeSlot 0 0) ready).rd Reg.secFuseStatus = 0x13 := by decide +kernel

/-- R42. -/
theorem test_shutdown_rails : (after .thermalShutdown up).rd Reg.pwtVddArray = 600 ∧ (after .thermalShutdown up).rd Reg.pwtVddLogic = 650 := by decide +kernel

/-- Table 3.6. -/
theorem test_csi_header_error : (after (.csi2HeaderUncorrectable 2) (put up [(Reg.ingCsiCtrl 2, 1)])).rd (Reg.ingCsiErr 2) = 1 := by decide +kernel

/-- R437. -/
theorem test_event_is_counted : (after (.errorEvent [0]) { up with err := { pend := [oneEvent] } }).rd (Reg.errEventCnt 15) = 1 := by decide +kernel

/-- R277: byte 1 of a little-endian write. -/
theorem test_write_to_stream_memory : (after (.memoryAccess [] { part := 1, holder := 0x10, write := true, addr := 0x1000F80000, len := 2, data := 0x1234 }) { up with cfg := { up.cfg with sbanks := [(1, 0x80000000)] } }).rdByte 0x1000F80001 = 0x12 := by decide +kernel

/-- Table 14.7. -/
theorem test_perst_loses_memory : (after .perstNAssert { up with mem := [(5, 1)] }).mem = [] := by decide +kernel

/-- R340. -/
theorem test_unsupported_request : (after (.unsupportedRequest 2 5 1 0x40 false) up).rd Reg.mgmtUrLog = 0x152 := by decide +kernel

/-- Table 7.3. -/
theorem test_block_of_the_worked_example : se12Of [0x40400000, 0xBFA00000, 0x3F000000, 0x3A83126F, 0x3A800000, 0xBA800000, 0xC0401000, 0, 0, 0, 0, 0, 0, 0, 0, 0] 0 % 2 ^ 208 = 0x80 <<< 192 + 0x09FFFFF001001100D80600 := by decide +kernel

/-- Table 7.5. -/
theorem test_weights_of_the_worked_example : (quantGroup 4 [0xBEA00000, 0x3EE00000]).map (fun g => (g.scale, g.zp)) = some (0x2A66, 6) := by decide +kernel

/-- The check value of CRC-32C over the digits 1 to 9. -/
theorem test_crc32c_of_nine_digits : crc32c { len := 9, val := 0x393837363534333231 } = 0xE3069283 := by decide +kernel

/-- Table 12.6. -/
theorem test_channels_of_table_12_6 : State.reset.chanOf 0x209400000 = 3 ∧ State.reset.chanOf 0x209400100 = 2 ∧ State.reset.chanOf 0x209400200 = 1 ∧ State.reset.chanOf 0x209400300 = 0 ∧ State.reset.chanOf 0x209800000 = 2 := by decide +kernel

/-- Table 12.6. -/
theorem test_rows_of_table_12_6 : State.reset.rowOfAddr 0x209400300 = 0x4128 ∧ State.reset.rowOfAddr 0x209800000 = 0x4130 := by decide +kernel

/-- R371. -/
theorem test_held_unit : (after (.signal none 9 3) held).syncVal 9 = 0 := by decide +kernel

end Sys2Proof.Tests
end

/-!
# Timing and power: the time base, tell-tales, the power cap, thermal shutdown (R26, R38, R42 to R46)

What the operations of the time base and of PWT leave in the registers and what they leave alone, then the statements about them.
-/
namespace Sys2Proof.TimingAndPower
open Sys2Proof Sys2Proof.Machine Sys2Proof.Laws

/-! ### Registers of the time base and of PWT at the end of a command -/

/-- The end of a command writes no register of subsystem 15. -/
theorem endReg_of_timeOrPower {a : Nat} (lo : 0x100000 ≤ a) (hi : a < 0x300000) : endReg a = false := by
  simp only [endReg, Bool.or_eq_false_iff, Bool.and_eq_false_iff, decide_eq_false_iff_not]
  simp only [Reg.safStatus, Reg.mgmtStatus, Reg.errSummary, Reg.halSyncValue]
  omega

/-! ### The time base in its registers (R43, R45) -/

theorem showTb_eq (s : State) : ∃ r, s.showTb = { s with regs := r } ∧
    ∀ a, a ≠ Reg.tbIncr → a ≠ Reg.tbIncr + 4 → a ≠ Reg.tbStatus → s.showTb.rd a = s.rd a := by
  unfold State.showTb
  generalize ofSint 40 s.tbIncrement = incr
  refine ⟨_, rfl, fun a hi hi' hs => ?_⟩
  rw [rd_setFld_other _ _ _ _ hs, rd_wr64_other _ _ hi hi']

/-- A slew step: the fraction kept, the slew that remains, and what `showTb` shows. -/
theorem absorbSlew_eq (s : State) : ∃ r f, s.absorbSlew = { s with regs := r, tb := { s.tb with slewFrac := f } } ∧
    ∀ a, a ≠ Reg.tbSlewRemain → a ≠ Reg.tbIncr → a ≠ Reg.tbIncr + 4 → a ≠ Reg.tbStatus → s.absorbSlew.rd a = s.rd a := by
  unfold State.absorbSlew
  split
  · exact ⟨s.regs, s.tb.slewFrac, rfl, fun _ _ _ _ _ => rfl⟩
  · dsimp only
    generalize (if 0 < s.slewRemain then _ else _ : Int) = left
    generalize (if left = 0 then 0 else _ : Nat) = frac
    obtain ⟨r, only, frame⟩ := showTb_eq ({ s with tb := { s.tb with slewFrac := frac } }.wr Reg.tbSlewRemain (ofSint 32 left))
    refine ⟨r, frac, only, fun a hr hi hi' hs => ?_⟩
    rw [frame a hi hi' hs, rd_wr_other _ _ hr]
    rfl

@[simp] theorem setTb_mem (s : State) (v : BitVec 96) : (s.setTb v).mem = s.mem := rfl
@[simp] theorem setTb_ecc (s : State) (v : BitVec 96) : (s.setTb v).ecc = s.ecc := rfl

/-! ### One REFCLK cycle (R43) -/

theorem tick_stopped {s : State} (stopped : (s.tb.held || s.pins.porLow || !s.pins.aonUp) = true) : s.tick = s := if_pos stopped

/-- A cycle with REFCLK and power: every copy takes the voted value plus the increment. -/
theorem tick_running {s : State} (running : ¬ (s.tb.held || s.pins.porLow || !s.pins.aonUp) = true) :
    ∃ r f, s.tick = { s with regs := r, tb := { s.tb with
        c0 := s.tb.vote + BitVec.ofInt 96 s.tbIncrement, c1 := s.tb.vote + BitVec.ofInt 96 s.tbIncrement,
        c2 := s.tb.vote + BitVec.ofInt 96 s.tbIncrement, slewFrac := f } } ∧
      ∀ a, a ≠ Reg.tbSlewRemain → a ≠ Reg.tbIncr → a ≠ Reg.tbIncr + 4 → a ≠ Reg.tbStatus → s.tick.rd a = s.rd a := by
  rw [State.tick, if_neg running]
  dsimp only
  generalize s.tb.vote + BitVec.ofInt 96 s.tbIncrement = v
  obtain ⟨r, f, only, frame⟩ := absorbSlew_eq (s.setTb v)
  refine ⟨_, f, by rw [State.setFld, wr_eq, only]; rfl, fun a hr hi hi' hs => ?_⟩
  rw [rd_setFld_other _ _ _ _ hs, frame a hr hi hi' hs]
  rfl

/-- Running or not, a cycle changes the time base and its registers only. -/
theorem tick_eq (s : State) : ∃ r t, s.tick = { s with regs := r, tb := t } ∧ ∀ a, ¬ (0x100000 ≤ a ∧ a < 0x200000) → s.tick.rd a = s.rd a := by
  by_cases stopped : (s.tb.held || s.pins.porLow || !s.pins.aonUp) = true
  · exact ⟨s.regs, s.tb, tick_stopped stopped, fun a _ => by rw [tick_stopped stopped]⟩
  · obtain ⟨r, f, only, frame⟩ := tick_running stopped
    refine ⟨r, _, only, fun a outside => ?_⟩
    apply frame <;> simp only [Reg.tbSlewRemain, Reg.tbIncr, Reg.tbStatus] <;> omega

theorem step_emptyQueue {s : State} (empty : s.pending = []) : step s = .next s.idle := by rw [step, empty]

/-- With no request to memory waiting, nothing is admitted beside the cycle. -/
theorem idle_noneWaiting {s : State} (noneWaits : s.dram.waiting = []) : s.idle = s.tick.finish s.pending := by
  obtain ⟨r, t, only, _⟩ := tick_eq s
  have waits : s.tick.dram.waiting = [] := by rw [only, noneWaits]
  rw [State.idle, State.whenLive, waits]
  simp [State.admitWaiting]

/-- Settles O2: the cycle touches the time base alone, and moves it exactly while it runs. -/
theorem emptyQueueGivesOneRefclkCycle : Obligations.EmptyQueueGivesOneRefclkCycle := by
  unfold Obligations.EmptyQueueGivesOneRefclkCycle
  intro s empty noneWaits
  obtain ⟨r, t, only, frame⟩ := tick_eq s
  refine ⟨s.tick.finish s.pending, by rw [step_emptyQueue empty, idle_noneWaiting noneWaits], by rw [finish_pending, empty],
    sameMem_finish (by rw [only]) (by rw [only]), sameOutside_finish (by rw [only]) (by rw [only]), sameRegs_finish ?frame, ?time⟩
  case frame =>
    intro a sel _
    exact frame a (by simpa using sel)
  case time =>
    rw [finish_tb]
    split
    case isTrue stopped => rw [tick_stopped stopped]
    case isFalse running =>
      obtain ⟨_, _, moved, _⟩ := tick_running running
      rw [moved]
      exact ⟨rfl, rfl, rfl⟩

/-! ### Writes of the time base (R45) -/

theorem adjRefused_rd (s : State) {a : Nat} (h : a ≠ Reg.tbErr) (h' : a ≠ msixPba 0 1) : s.adjRefused.rd a = s.rd a := raise_rd s _ h h'

@[simp] theorem adjRefused_mem (s : State) : s.adjRefused.mem = s.mem := raise_mem s _
@[simp] theorem adjRefused_ecc (s : State) : s.adjRefused.ecc = s.ecc := raise_ecc s _
@[simp] theorem adjRefused_tb (s : State) : s.adjRefused.tb = s.tb := raise_tb s _

theorem adjRefused_bit (s : State) (awake : s.pins.porLow = false) : s.adjRefused.bitAt Reg.tbErr 3 = true := raise_bit s _ awake (by decide)

/-- A function answers only with POR_N released (R371). -/
theorem fnLive_porHigh {s : State} {f : Nat} (live : s.fnLive f = true) : s.pins.porLow = false := by
  simp only [State.fnLive, Bool.and_eq_true, Bool.not_eq_true'] at live
  obtain ⟨⟨⟨_, porHigh⟩, _⟩, _⟩ := live
  exact porHigh

theorem writeAdjRate_refused (s : State) {v : Nat} (h : sint 32 v < -200000 ∨ 200000 < sint 32 v) : s.writeAdjRate v = s.adjRefused := if_pos h

theorem writeAdjRate_taken (s : State) {v : Nat} (h : ¬ (sint 32 v < -200000 ∨ 200000 < sint 32 v)) :
    s.writeAdjRate v = (s.wr Reg.tbAdjRate v).showTb := if_neg h

theorem writeTbSet_refused (s : State) {v : Nat} (h : s.anyActive = true ∨ v < s.now) : s.writeTbSet v = s.adjRefused :=
  if_pos (by simpa using h)

theorem writeTbSet_taken (s : State) {v : Nat} (h : ¬ (s.anyActive = true ∨ v < s.now)) :
    s.writeTbSet v = s.setTb (BitVec.ofNat 96 (v * 2 ^ 32)) := if_neg (by simpa using h)

theorem finish_now (s : State) (q : List Instr) : (s.finish q).now = s.now := by rw [State.now, finish_tb, State.now]

/-- Three equal copies show their whole ns (R21, R43). -/
theorem now_setTb (s : State) {v : Nat} (h : v < 2 ^ 64) : (s.setTb (BitVec.ofNat 96 (v * 2 ^ 32))).now = v := by
  simp only [State.now, State.setTb, TimeBase.vote, true_or, if_true, BitVec.toNat_ofNat]
  omega

/-- TB counts whole ns in 64 bits. -/
theorem now_lt (s : State) : s.now < 2 ^ 64 := by
  have := s.tb.vote.isLt
  simp only [State.now]
  omega

theorem exec_tbAdjRateWrite {s : State} (v : Word) (live : s.fnLive 0 = true) :
    exec (.tbAdjRateWrite v) s = .next ((s.writeAdjRate v.toNat).finish s.pending) := by
  rw [← whenFn_live (fun x => x.writeAdjRate v.toNat) live]
  rfl

theorem exec_tbSetWrite {s : State} (v : BitVec 64) (live : s.fnLive 0 = true) :
    exec (.tbSetWrite v) s = .next ((s.writeTbSet v.toNat).finish s.pending) := by
  rw [← whenFn_live (fun x => x.writeTbSet v.toNat) live]
  rfl

/-- TB_ADJ_RATE: taken within its bounds, refused outside them. -/
theorem tbAdjRateWrite_effect {s : State} (live : s.fnLive 0 = true) (v : Word) :
    ∃ t, exec (.tbAdjRateWrite v) s = .next t ∧ s.sameMem t ∧ t.tb = s.tb ∧
      (if sint 32 v.toNat < -200000 ∨ 200000 < sint 32 v.toNat then t.rd Reg.tbAdjRate = s.rd Reg.tbAdjRate ∧ t.bitAt Reg.tbErr 3 = true
       else t.rd Reg.tbAdjRate = v.toNat) := by
  refine ⟨_, exec_tbAdjRateWrite v live, ?_⟩
  rw [finish_tb, finish_rd _ _ (a := Reg.tbAdjRate) (by decide), finish_bitAt _ _ _ (a := Reg.tbErr) (by decide)]
  split
  case isTrue refused =>
    rw [writeAdjRate_refused s refused]
    exact ⟨sameMem_finish (by simp) (by simp), adjRefused_tb s, adjRefused_rd s (by decide) (by decide), adjRefused_bit s (fnLive_porHigh live)⟩
  case isFalse taken =>
    rw [writeAdjRate_taken s taken]
    obtain ⟨r, only, frame⟩ := showTb_eq (s.wr Reg.tbAdjRate v.toNat)
    refine ⟨sameMem_finish (by simp [only]) (by simp [only]), by simp [only], ?_⟩
    rw [frame _ (by decide) (by decide) (by decide), rd_wr_same]
    exact Nat.mod_eq_of_lt v.isLt

/-- TB_SET: the time moves forward while nothing runs, and stays otherwise. -/
theorem tbSetWrite_effect {s : State} (live : s.fnLive 0 = true) (v : BitVec 64) :
    ∃ t, exec (.tbSetWrite v) s = .next t ∧ s.sameMem t ∧
      (if s.anyActive = true ∨ v.toNat < s.now then t.now = s.now ∧ t.bitAt Reg.tbErr 3 = true else t.now = v.toNat) := by
  refine ⟨_, exec_tbSetWrite v live, ?_⟩
  rw [finish_now, finish_bitAt _ _ _ (a := Reg.tbErr) (by decide)]
  split
  case isTrue refused =>
    rw [writeTbSet_refused s refused]
    exact ⟨sameMem_finish (by simp) (by simp), by rw [State.now, adjRefused_tb, State.now], adjRefused_bit s (fnLive_porHigh live)⟩
  case isFalse taken =>
    rw [writeTbSet_taken s taken]
    exact ⟨sameMem_finish (setTb_mem _ _) (setTb_ecc _ _), now_setTb s v.isLt⟩

/-- Settles O11, a register at a time. -/
theorem timeBaseWritesAreTakenOrRefused : Obligations.TimeBaseWritesAreTakenOrRefused := by
  unfold Obligations.TimeBaseWritesAreTakenOrRefused
  exact fun s live => ⟨tbAdjRateWrite_effect live, tbSetWrite_effect live⟩

/-! ### Edges on TIME_PPS (R46) -/

/-- What an edge captures and counts. -/
def ppsCaptured (s : State) : State := ((s.wr64 Reg.tbPpsCapture s.now).bump Reg.tbPpsCount 1).setFld Reg.tbStatus 1 1 1

theorem timePps_captureOnly {s : State} (mode : s.ppsMode = 1) : s.timePps = ppsCaptured s := by
  simp [State.timePps, mode, ppsCaptured]

theorem timePps_off {s : State} (mode : s.ppsMode = 0 ∨ s.ppsMode = 3) : s.timePps = s := by
  refine if_neg ?_
  omega

theorem ppsCaptured_capture (s : State) : (ppsCaptured s).rd64 Reg.tbPpsCapture = s.now := by
  have low : Reg.tbPpsCapture ≠ Reg.tbStatus ∧ Reg.tbPpsCapture ≠ Reg.tbPpsCount := by decide
  have high : Reg.tbPpsCapture + 4 ≠ Reg.tbStatus ∧ Reg.tbPpsCapture + 4 ≠ Reg.tbPpsCount := by decide
  rw [State.rd64, ppsCaptured, rd_setFld_other _ _ _ _ low.1, rd_setFld_other _ _ _ _ high.1, rd_bump_other _ _ low.2, rd_bump_other _ _ high.2]
  exact rd64_wr64_same s _ _ (now_lt s)

theorem ppsCaptured_count (s : State) : (ppsCaptured s).rd Reg.tbPpsCount = min (s.rd Reg.tbPpsCount + 1) 0xFFFFFFFF := by
  rw [ppsCaptured, rd_setFld_other _ _ _ _ (by decide), rd_bump_same, rd_wr64_other _ _ (by decide) (by decide)]
  rfl

theorem ppsCaptured_status (s : State) : (ppsCaptured s).bitAt Reg.tbStatus 1 = true := by
  rw [ppsCaptured, bitAt_setFld_same _ _ _ _ _ _ (by decide)]
  rfl

theorem ppsCaptured_rd_other (s : State) {a : Nat} (hc : a ≠ Reg.tbPpsCapture) (hc' : a ≠ Reg.tbPpsCapture + 4) (hn : a ≠ Reg.tbPpsCount)
    (hs : a ≠ Reg.tbStatus) : (ppsCaptured s).rd a = s.rd a := by
  rw [ppsCaptured, rd_setFld_other _ _ _ _ hs, rd_bump_other _ _ hn, rd_wr64_other _ _ hc hc']

@[simp] theorem ppsCaptured_mem (s : State) : (ppsCaptured s).mem = s.mem := rfl
@[simp] theorem ppsCaptured_ecc (s : State) : (ppsCaptured s).ecc = s.ecc := rfl
@[simp] theorem ppsCaptured_hostMem (s : State) : (ppsCaptured s).hostMem = s.hostMem := rfl
@[simp] theorem ppsCaptured_out (s : State) : (ppsCaptured s).out = s.out := rfl

theorem exec_timePpsEdge {s : State} (on : s.pins.aonUp = true) : exec .timePpsEdge s = .next (s.timePps.finish s.pending) := by
  rw [← whenOn_on State.timePps on]
  rfl

/-- Settles O12: mode 0b01 captures and counts, modes 0b00 and 0b11 leave the state to the end of the command. -/
theorem ppsEdgeIsCapturedAndCounted : Obligations.PpsEdgeIsCapturedAndCounted := by
  unfold Obligations.PpsEdgeIsCapturedAndCounted
  intro s on
  rw [exec_timePpsEdge on]
  refine ⟨fun capture => ?captured, fun off => by rw [timePps_off off]⟩
  rw [timePps_captureOnly capture]
  refine ⟨_, rfl, ?capture, ?count, ?status, sameMem_finish (by simp) (by simp), sameOutside_finish (by simp) (by simp), sameRegs_finish ?frame⟩
  case capture => rw [finish_rd64 _ _ (by decide) (by decide), ppsCaptured_capture]
  case count => rw [finish_rd _ _ (by decide), ppsCaptured_count]
  case status => rw [finish_bitAt _ _ _ (by decide), ppsCaptured_status]
  case frame =>
    intro a sel _
    simp only [List.contains_eq_mem, decide_eq_false_iff_not, List.mem_cons, List.not_mem_nil, or_false, not_or] at sel
    obtain ⟨low, high, count, status⟩ := sel
    exact ppsCaptured_rd_other s low high count status

/-! ### Events of PWT -/

theorem pwtErr_rd (s : State) (b unit aux : Nat) {a : Nat} (h : a ≠ Reg.pwtErr) (h' : a ≠ msixPba 0 1) :
    (s.pwtErr b unit aux).rd a = s.rd a := raise_rd s _ h h'

@[simp] theorem pwtErr_mem (s : State) (b unit aux : Nat) : (s.pwtErr b unit aux).mem = s.mem := raise_mem s _
@[simp] theorem pwtErr_ecc (s : State) (b unit aux : Nat) : (s.pwtErr b unit aux).ecc = s.ecc := raise_ecc s _
@[simp] theorem pwtErr_pins (s : State) (b unit aux : Nat) : (s.pwtErr b unit aux).pins = s.pins := raise_pins s _
@[simp] theorem pwtErr_pwt (s : State) (b unit aux : Nat) : (s.pwtErr b unit aux).pwt = s.pwt := raise_pwt s _

theorem pwtErr_bit (s : State) {b : Nat} (unit aux : Nat) (h : s.pins.porLow = false) (hb : b < 32) :
    (s.pwtErr b unit aux).bitAt Reg.pwtErr b = true := raise_bit s _ h hb

/-! ### Tell-tales (R26) -/

/-- An island's register is neither PWT_ERR nor the pending bits of vector 1. -/
theorem pwtTtRate_ne (i : Nat) : Reg.pwtTtRate i ≠ Reg.pwtErr ∧ Reg.pwtTtRate i ≠ msixPba 0 1 := by
  simp only [Reg.pwtTtRate, Reg.pwtErr, msixPba, if_true]
  omega

theorem readIsland_rd_same (s : State) (i a b : Nat) : (s.readIsland i a b).rd (Reg.pwtTtRate i) = min a b % 65536 := by
  have written : (s.wr (Reg.pwtTtRate i) (min a b % 65536)).rd (Reg.pwtTtRate i) = min a b % 65536 := by
    rw [rd_wr_same]
    omega
  unfold State.readIsland
  split
  · rw [pwtErr_rd _ _ _ _ (pwtTtRate_ne i).1 (pwtTtRate_ne i).2, written]
  · exact written

theorem readIsland_rd_other (s : State) (i a b : Nat) {x : Nat} (hi : x ≠ Reg.pwtTtRate i) (he : x ≠ Reg.pwtErr) (hp : x ≠ msixPba 0 1) :
    (s.readIsland i a b).rd x = s.rd x := by
  unfold State.readIsland
  split
  · rw [pwtErr_rd _ _ _ _ he hp, rd_wr_other _ _ hi]
  · exact rd_wr_other _ _ hi

@[simp] theorem readIsland_mem (s : State) (i a b : Nat) : (s.readIsland i a b).mem = s.mem := by
  unfold State.readIsland; split <;> simp

@[simp] theorem readIsland_ecc (s : State) (i a b : Nat) : (s.readIsland i a b).ecc = s.ecc := by
  unfold State.readIsland; split <;> simp

theorem readIslands_mem (s : State) (i : Nat) (l : List (Nat × Nat)) : (s.readIslands i l).mem = s.mem := by
  induction l generalizing s i with
  | nil => rfl
  | cons p t ih => rw [State.readIslands, ih, readIsland_mem]

theorem readIslands_ecc (s : State) (i : Nat) (l : List (Nat × Nat)) : (s.readIslands i l).ecc = s.ecc := by
  induction l generalizing s i with
  | nil => rfl
  | cons p t ih => rw [State.readIslands, ih, readIsland_ecc]

theorem readIslands_rd_other (s : State) (i : Nat) (l : List (Nat × Nat)) {x : Nat} (hi : ∀ k < l.length, x ≠ Reg.pwtTtRate (i + k))
    (he : x ≠ Reg.pwtErr) (hp : x ≠ msixPba 0 1) : (s.readIslands i l).rd x = s.rd x := by
  induction l generalizing s i with
  | nil => rfl
  | cons p t ih =>
    have tail : ∀ k < t.length, x ≠ Reg.pwtTtRate (i + 1 + k) := fun k hk => by
      rw [Nat.add_assoc, Nat.add_comm 1 k]
      exact hi (k + 1) (Nat.succ_lt_succ hk)
    have head : x ≠ Reg.pwtTtRate i := hi 0 (Nat.succ_pos _)
    rw [State.readIslands, ih _ _ tail, readIsland_rd_other _ _ _ _ head he hp]

/-- Each island keeps its reading while the islands after it are read. -/
theorem readIslands_rd_at (s : State) (i : Nat) (l : List (Nat × Nat)) {k : Nat} {p : Nat × Nat} (h : l[k]? = some p) :
    (s.readIslands i l).rd (Reg.pwtTtRate (i + k)) = min p.1 p.2 % 65536 := by
  induction l generalizing s i k with
  | nil => simp at h
  | cons q t ih =>
    cases k with
    | zero =>
      obtain rfl : q = p := by simpa using h
      have later : ∀ k < t.length, Reg.pwtTtRate i ≠ Reg.pwtTtRate (i + 1 + k) := fun k _ => by
        simp only [Reg.pwtTtRate]
        omega
      rw [State.readIslands, Nat.add_zero i, readIslands_rd_other _ _ _ later (pwtTtRate_ne i).1 (pwtTtRate_ne i).2, readIsland_rd_same]
    | succ k =>
      rw [State.readIslands, show i + (k + 1) = i + 1 + k by omega]
      exact ih _ _ (by simpa using h)

theorem telltaleRead_mem (s : State) (l : List (Nat × Nat)) : (s.telltaleRead l).mem = s.mem := readIslands_mem s 0 _

theorem telltaleRead_ecc (s : State) (l : List (Nat × Nat)) : (s.telltaleRead l).ecc = s.ecc := readIslands_ecc s 0 _

theorem telltaleRead_rd_at (s : State) {l : List (Nat × Nat)} {i : Nat} {p : Nat × Nat} (hi : i < 102) (h : l[i]? = some p) :
    (s.telltaleRead l).rd (Reg.pwtTtRate i) = min p.1 p.2 % 65536 := by
  have apart : Reg.pwtTtRate i ≠ Reg.pwtBeatNow := by
    simp only [Reg.pwtTtRate, Reg.pwtBeatNow]
    omega
  have taken : (l.take 102)[i]? = some p := by rw [List.getElem?_take_of_lt hi, h]
  rw [State.telltaleRead, rd_wr_other _ _ apart]
  simpa using readIslands_rd_at s 0 _ taken

theorem telltaleRead_rd_other (s : State) (l : List (Nat × Nat)) {a : Nat} (hi : ∀ i < 102, a ≠ Reg.pwtTtRate i) (hb : a ≠ Reg.pwtBeatNow)
    (he : a ≠ Reg.pwtErr) (hp : a ≠ msixPba 0 1) : (s.telltaleRead l).rd a = s.rd a := by
  have islands : ∀ k < (l.take 102).length, a ≠ Reg.pwtTtRate (0 + k) := fun k hk => by
    rw [Nat.zero_add]
    exact hi k (Nat.lt_of_lt_of_le hk (List.length_take_le _ _))
  rw [State.telltaleRead, rd_wr_other _ _ hb, readIslands_rd_other _ _ _ islands he hp]

theorem exec_telltaleRead {s : State} (rs : List (BitVec 16 × BitVec 16)) (on : s.pins.aonUp = true) :
    exec (.telltaleRead rs) s = .next ((s.telltaleRead (rs.map (fun r => (r.1.toNat, r.2.toNat)))).finish s.pending) := by
  rw [← whenOn_on (fun x => x.telltaleRead _) on]
  rfl

/-- Settles O7: each island's register is written once, with the smaller of its pair, and the later islands leave it. -/
theorem telltaleReadingIsTheSlower : Obligations.TelltaleReadingIsTheSlower := by
  unfold Obligations.TelltaleReadingIsTheSlower
  intro s rs on len
  refine ⟨_, exec_telltaleRead rs on, sameMem_finish (telltaleRead_mem _ _) (telltaleRead_ecc _ _), ?reading, sameRegs_finish ?frame⟩
  case reading =>
    intro i p hp
    have hi : i < 102 := len ▸ (List.getElem?_eq_some_iff.mp hp).1
    have kept : endReg (Reg.pwtTtRate i) = false :=
      endReg_of_timeOrPower (by simp only [Reg.pwtTtRate]; omega) (by simp only [Reg.pwtTtRate]; omega)
    have mapped : (rs.map (fun r => (r.1.toNat, r.2.toNat)))[i]? = some (p.1.toNat, p.2.toNat) := by simp [hp]
    rw [finish_rd _ _ kept, telltaleRead_rd_at s hi mapped]
    exact Nat.mod_eq_of_lt (Nat.lt_of_le_of_lt (Nat.min_le_left _ _) p.1.isLt)
  case frame =>
    intro a sel _
    simp only [Bool.or_eq_false_iff, Bool.and_eq_false_iff, decide_eq_false_iff_not] at sel
    obtain ⟨⟨⟨island, beat⟩, err⟩, pba⟩ := sel
    refine telltaleRead_rd_other s _ (fun i hi => ?_) beat err pba
    simp only [Reg.pwtTtRate] at island ⊢
    omega

/-! ### The power cap (R38) -/

theorem writeCap_outside (s : State) {v : Nat} (h : v < 12000 ∨ 40000 < v) : s.writeCap v = s.wr Reg.pwtCapResult 1 := if_pos h

theorem writeCap_belowClassS (s : State) {v : Nat} (h : ¬ (v < 12000 ∨ 40000 < v)) (h' : v < s.rd Reg.pwtCapMinS) :
    s.writeCap v = s.wr Reg.pwtCapResult 2 := by rw [State.writeCap, if_neg h, if_pos h']

theorem writeCap_taken (s : State) {v : Nat} (h : ¬ (v < 12000 ∨ 40000 < v)) (h' : ¬ v < s.rd Reg.pwtCapMinS) :
    s.writeCap v = (s.wr Reg.pwtPowerCap v).wr Reg.pwtCapResult 0 := by rw [State.writeCap, if_neg h, if_neg h']

/-- Whatever is written as the cap, only registers change, and of those only the cap and its result. -/
theorem writeCap_eq (s : State) (v : Nat) : ∃ r, s.writeCap v = { s with regs := r } ∧
    ∀ a, a ≠ Reg.pwtPowerCap → a ≠ Reg.pwtCapResult → (s.writeCap v).rd a = s.rd a := by
  unfold State.writeCap
  split
  · exact ⟨_, rfl, fun a _ hr => rd_wr_other _ _ hr⟩
  · split
    · exact ⟨_, rfl, fun a _ hr => rd_wr_other _ _ hr⟩
    · exact ⟨_, rfl, fun a hc hr => (rd_wr_other _ _ hr).trans (rd_wr_other _ _ hc)⟩

theorem exec_pwtPowerCapWrite {s : State} (v : Word) (live : s.fnLive 0 = true) :
    exec (.pwtPowerCapWrite v) s = .next ((s.writeCap v.toNat).finish s.pending) := by
  rw [← whenFn_live (fun x => x.writeCap v.toNat) live]
  rfl

/-- Settles O8, by the three branches of R38. -/
theorem powerCapWriteIsTakenOrRefused : Obligations.PowerCapWriteIsTakenOrRefused := by
  unfold Obligations.PowerCapWriteIsTakenOrRefused
  intro s v live
  obtain ⟨r, only, frame⟩ := writeCap_eq s v.toNat
  have apart : Reg.pwtPowerCap ≠ Reg.pwtCapResult := by decide
  refine ⟨_, exec_pwtPowerCapWrite v live, sameMem_finish (by rw [only]) (by rw [only]), sameOutside_finish (by rw [only]) (by rw [only]),
    sameRegs_finish ?frame, ?code⟩
  case frame =>
    intro a sel _
    simp only [Bool.or_eq_false_iff, decide_eq_false_iff_not] at sel
    exact frame a sel.1 sel.2
  case code =>
    rw [finish_rd _ _ (a := Reg.pwtCapResult) (by decide), finish_rd _ _ (a := Reg.pwtPowerCap) (by decide)]
    split
    case isTrue h =>
      rw [writeCap_outside s h]
      exact ⟨rd_wr_same _ _ _, rd_wr_other _ _ apart⟩
    case isFalse h =>
      split
      case isTrue h' =>
        rw [writeCap_belowClassS s h h']
        exact ⟨rd_wr_same _ _ _, rd_wr_other _ _ apart⟩
      case isFalse h' =>
        rw [writeCap_taken s h h', rd_wr_same, rd_wr_other _ _ apart, rd_wr_same]
        exact ⟨rfl, Nat.mod_eq_of_lt v.isLt⟩

/-! ### Faults recorded and FAULT_N (R318) -/

/-- A fault recorded: only the registers of the fault record change. -/
theorem recordFault_eq (s : State) (f : FaultReport) : ∃ r, s.recordFault f = { s with regs := r } ∧
    ∀ a, a ≠ Reg.safFaultCnt → a ≠ Reg.safFaultCause → a ≠ Reg.safFaultTb → a ≠ Reg.safFaultTb + 4 → (s.recordFault f).rd a = s.rd a := by
  unfold State.recordFault
  generalize f.cause + _ + _ = cause
  split
  · exact ⟨_, rfl, fun a hn _ _ _ => rd_bump_other _ _ hn⟩
  · refine ⟨_, rfl, fun a hn hc ht ht' => ?_⟩
    rw [rd_wr64_other _ _ ht ht', rd_wr_other _ _ hc, rd_bump_other _ _ hn]

/-- FAULT_N asserted: the pin, the time of its edge and its copies. -/
theorem assertFaultN_eq (s : State) : ∃ r, s.assertFaultN = { s with regs := r, pins := { s.pins with faultN := true } } ∧
    ∀ a, a ≠ Reg.safFaultNTb → a ≠ Reg.safFaultNTb + 4 → a ≠ Reg.safStatus → a ≠ Reg.mgmtStatus → s.assertFaultN.rd a = s.rd a := by
  unfold State.assertFaultN
  split
  · refine ⟨_, rfl, fun a _ _ hs hm => ?_⟩
    rw [rd_setFld_other _ _ _ _ hm, rd_setFld_other _ _ _ _ hs]
    rfl
  · refine ⟨_, rfl, fun a ht ht' hs hm => ?_⟩
    rw [rd_setFld_other _ _ _ _ hm, rd_setFld_other _ _ _ _ hs]
    exact rd_wr64_other _ _ ht ht'

/-! ### Thermal shutdown (R42) -/

/-- The setpoint of a rail sent: its register and what leaves the device. -/
theorem setRailMv_rd_other (s : State) (k mv : Nat) {a : Nat} (h : a ≠ railReg k) : (s.setRailMv k mv).rd a = s.rd a := rd_wr_other s mv h

theorem setRailMv_rd_same (s : State) (k mv : Nat) : (s.setRailMv k mv).rd (railReg k) = mv % 2 ^ 32 := rd_wr_same s _ mv

/-- The handshakes stopped, safe hold and THERMTRIP_N, before the rails move. -/
def tripped (s : State) : State :=
  { s with pwt := { s.pwt with shutdown := true }, saf := { s.saf with hold := true }, pins := { s.pins with thermtripN := true } }

/-- The rails commanded down and the event raised. -/
def railsDown (s : State) : State := (((tripped s).setRailMv 0 600).setRailMv 1 650).pwtErr 10 0xFF 0

theorem thermalShutdown_eq_railsDown (s : State) (first : s.pwt.shutdown = false) :
    s.thermalShutdown = ((railsDown s).recordFault { cause := 0x13, subsys := 15, unit := 0, tb := s.now }).assertFaultN := by
  rw [State.thermalShutdown, first]
  rfl

theorem railsDown_rd_other (s : State) {a : Nat} (ha : a ≠ Reg.pwtVddArray) (hl : a ≠ Reg.pwtVddLogic) (he : a ≠ Reg.pwtErr)
    (hp : a ≠ msixPba 0 1) : (railsDown s).rd a = s.rd a := by
  rw [railsDown, pwtErr_rd _ _ _ _ he hp, setRailMv_rd_other _ 1 _ hl, setRailMv_rd_other _ 0 _ ha]
  rfl

theorem railsDown_array (s : State) : (railsDown s).rd Reg.pwtVddArray = 600 := by
  rw [railsDown, pwtErr_rd _ _ _ _ (by decide) (by decide), setRailMv_rd_other _ 1 _ (by decide)]
  exact setRailMv_rd_same _ 0 600

theorem railsDown_logic (s : State) : (railsDown s).rd Reg.pwtVddLogic = 650 := by
  rw [railsDown, pwtErr_rd _ _ _ _ (by decide) (by decide)]
  exact setRailMv_rd_same _ 1 650

theorem railsDown_err (s : State) (awake : s.pins.porLow = false) : (railsDown s).bitAt Reg.pwtErr 10 = true :=
  pwtErr_bit _ _ _ awake (by decide)

@[simp] theorem railsDown_mem (s : State) : (railsDown s).mem = s.mem := pwtErr_mem _ _ _ _
@[simp] theorem railsDown_ecc (s : State) : (railsDown s).ecc = s.ecc := pwtErr_ecc _ _ _ _
@[simp] theorem railsDown_pins (s : State) : (railsDown s).pins = { s.pins with thermtripN := true } := pwtErr_pins _ _ _ _
@[simp] theorem railsDown_pwt (s : State) : (railsDown s).pwt = { s.pwt with shutdown := true } := pwtErr_pwt _ _ _ _

/-- After the rails are down, the shutdown changes registers of the fault record and FAULT_N only. -/
theorem thermalShutdown_eq (s : State) (first : s.pwt.shutdown = false) :
    ∃ r, s.thermalShutdown = { railsDown s with regs := r, pins := { (railsDown s).pins with faultN := true } } ∧
      ∀ a, endReg a = false → [Reg.safFaultCnt, Reg.safFaultCause, Reg.safFaultTb, Reg.safFaultTb + 4, Reg.safFaultNTb,
        Reg.safFaultNTb + 4].contains a = false → s.thermalShutdown.rd a = (railsDown s).rd a := by
  rw [thermalShutdown_eq_railsDown s first]
  generalize ({ cause := 0x13, subsys := 15, unit := 0, tb := s.now } : FaultReport) = f
  obtain ⟨r, recorded, frameRecord⟩ := recordFault_eq (railsDown s) f
  obtain ⟨r', asserted, framePin⟩ := assertFaultN_eq ((railsDown s).recordFault f)
  refine ⟨r', by rw [asserted, recorded], fun a notEnd apart => ?_⟩
  simp only [List.contains_eq_mem, decide_eq_false_iff_not, List.mem_cons, List.not_mem_nil, or_false, not_or] at apart
  obtain ⟨cnt, cause, tb, tb', pinTb, pinTb'⟩ := apart
  simp only [endReg, Bool.or_eq_false_iff, decide_eq_false_iff_not] at notEnd
  obtain ⟨⟨⟨status, mgmt⟩, _⟩, _⟩ := notEnd
  rw [framePin a pinTb pinTb' status mgmt, frameRecord a cnt cause tb tb']

theorem exec_thermalShutdown {s : State} (on : s.pins.aonUp = true) :
    exec .thermalShutdown s = .next (s.thermalShutdown.finish s.pending) := by
  rw [← whenOn_on State.thermalShutdown on]
  rfl

/-- Settles O10: the rails go down first, and the fault's record leaves them and PWT_ERR alone. -/
theorem thermalShutdownDropsTheRails : Obligations.ThermalShutdownDropsTheRails := by
  unfold Obligations.ThermalShutdownDropsTheRails
  intro s on awake first
  obtain ⟨r, only, frame⟩ := thermalShutdown_eq s first
  refine ⟨_, exec_thermalShutdown on, by simp [only], by simp [only], by simp [only], ?array, ?logic, ?err,
    sameMem_finish (by simp [only]) (by simp [only]), sameRegs_finish ?frame⟩
  case array => rw [finish_rd _ _ (by decide), frame _ (by decide) (by decide), railsDown_array]
  case logic => rw [finish_rd _ _ (by decide), frame _ (by decide) (by decide), railsDown_logic]
  case err =>
    rw [finish_bitAt _ _ _ (by decide), State.bitAt, frame _ (by decide) (by decide)]
    exact railsDown_err s awake
  case frame =>
    intro a sel notEnd
    simp only [List.contains_eq_mem, decide_eq_false_iff_not, List.mem_cons, List.not_mem_nil, or_false, not_or] at sel
    obtain ⟨array, logic, err, pba, record⟩ := sel
    rw [frame a notEnd (by simpa using record), railsDown_rd_other s array logic err pba]

end Sys2Proof.TimingAndPower

/-!
# Stream ingress: disabled CSI-2 ports and classification entries (R52, R64, Table 3.8)

What the packets of a port do while it is disabled, and what a write of one word of a classification entry does, then the statements about them.
-/
namespace Sys2Proof.StreamIngress
open Sys2Proof Sys2Proof.Machine Sys2Proof.Laws

/-! ### A disabled CSI-2 port (R52, Table 3.8) -/

/-- A command whose operation changes nothing leaves the state to the end of the command, whether its unit is held in reset or not. -/
theorem ends_whenLive_unchanged {s : State} {act : State → State} (unchanged : act s = s) :
    s.ends (s.whenLive act) = .next (s.finish s.pending) := by
  have guarded : s.whenLive act = s := by
    unfold State.whenLive
    split
    · exact unchanged
    · rfl
  rw [State.ends, guarded]

section Disabled
variable {s : State} {k : Nat} (off : s.bitAt (Reg.ingCsiCtrl k) 0 = false)
include off

theorem csiFrameStart_disabled (vc fn : Nat) (fixed dup : Bool) : s.csiFrameStart k vc fn fixed dup = s :=
  if_pos (by rw [off]; rfl)

theorem csiLinePacket_disabled (vc dt wc : Nat) (crcOk fixed : Bool) (data : Nat) (dup : Bool) :
    s.csiLinePacket k vc dt wc crcOk fixed data dup = s :=
  if_pos (by rw [off]; rfl)

theorem csiEmbedded_disabled (vc : Nat) (crcOk fixed : Bool) (data : Blob) : s.csiEmbedded k vc crcOk fixed data = s :=
  if_pos (by rw [off]; rfl)

theorem csiFrameEnd_disabled (vc : Nat) (fixed : Bool) : s.csiFrameEnd k vc fixed = s :=
  if_pos (by rw [off]; rfl)

theorem csiUlps_disabled (ulps hs deskew : Bool) : s.csiUlps k ulps hs deskew = s :=
  if_pos (by rw [off]; rfl)

theorem csiHeaderBad_disabled : s.csiHeaderBad k = s := if_neg (by simp [off])

theorem csiSyncErr_disabled : s.csiSyncErr k = s := if_neg (by simp [off])

/-- No front end learns of a frame closed on a port that was disabled before the command. -/
theorem afterClose_disabled (x : State) (vc : Nat) : x.afterClose s k vc = x := by
  unfold State.afterClose
  split
  · rfl
  · exact if_neg (by simp [off])

/-- No encoder view goes on for a line of a port that was disabled before the command. -/
theorem afterLine_disabled (x : State) (vc : Nat) : x.afterLine s k vc = x := by
  unfold State.afterLine
  split
  · rfl
  · exact if_neg (by simp [off])

end Disabled

/-- Settles O13: every operation of the port tests the enable bit first, and what follows a frame or a line tests it as it stood before (log entry 7). -/
theorem disabledCsiPortChangesNothing : Obligations.DisabledCsiPortChangesNothing := by
  unfold Obligations.DisabledCsiPortChangesNothing
  intro s port off
  refine ⟨fun vc fn fixed dup => ends_whenLive_unchanged ?start, fun vc dt wc crcOk fixed data dup => ends_whenLive_unchanged ?line,
    fun vc crcOk fixed data => ends_whenLive_unchanged ?embedded, fun vc fixed => ends_whenLive_unchanged ?frameEnd,
    ends_whenLive_unchanged ?header, ends_whenLive_unchanged ?sync, fun ulps hs deskew => ends_whenLive_unchanged ?lanes⟩
  case start => rw [afterClose_disabled off, csiFrameStart_disabled off]
  case line => rw [afterLine_disabled off, csiLinePacket_disabled off]
  case embedded => exact csiEmbedded_disabled off _ _ _ _
  case frameEnd => rw [afterClose_disabled off, csiFrameEnd_disabled off]
  case header => exact csiHeaderBad_disabled off
  case sync => exact csiSyncErr_disabled off
  case lanes => exact csiUlps_disabled off _ _ _

/-! ### Classification entries (R64, Table 3.4) -/

/-- The end of a command writes no word of a classification entry. -/
theorem endReg_ingEthClass {n k : Nat} (hn : n < 128) (hk : k < 16) : endReg (Reg.ingEthClass n + 4 * k) = false := by
  simp only [endReg, Bool.or_eq_false_iff, Bool.and_eq_false_iff, decide_eq_false_iff_not]
  simp only [Reg.ingEthClass, Reg.safStatus, Reg.mgmtStatus, Reg.errSummary, Reg.halSyncValue]
  omega

/-- Words that read alike make the same number. -/
theorem rdWords_congr {s t : State} {a n : Nat} (same : ∀ k < n, t.rd (a + 4 * k) = s.rd (a + 4 * k)) : t.rdWords a n = s.rdWords a n := by
  induction n generalizing a with
  | zero => rfl
  | succ n ih =>
    have first : t.rd a = s.rd a := same 0 n.succ_pos
    have rest : ∀ k < n, t.rd (a + 4 + 4 * k) = s.rd (a + 4 + 4 * k) := fun k hk => by
      have := same (k + 1) (Nat.succ_lt_succ hk)
      rwa [show a + 4 * (k + 1) = a + 4 + 4 * k by omega] at this
    rw [State.rdWords, State.rdWords, first, ih rest]

/-- The 64 bytes of an entry's registers at the end of a command. -/
theorem finish_rdWords_ingEthClass (s : State) (q : List Instr) {n : Nat} (hn : n < 128) :
    (s.finish q).rdWords (Reg.ingEthClass n) 16 = s.rdWords (Reg.ingEthClass n) 16 :=
  rdWords_congr fun _ hk => finish_rd s q (endReg_ingEthClass hn hk)

/-- A word of an entry's registers written: that register and, beside registers, at most the entries in force. -/
theorem ethClassWrite_eq (s : State) (n word v : Nat) :
    ∃ i, s.ethClassWrite n word v = { s.wr (Reg.ingEthClass n + 4 * word) v with ing := i } := by
  unfold State.ethClassWrite
  split
  · exact ⟨_, rfl⟩
  · exact ⟨_, rfl⟩

theorem ethClassWrite_rd (s : State) (n word v a : Nat) :
    (s.ethClassWrite n word v).rd a = if a = Reg.ingEthClass n + 4 * word then v % 2 ^ 32 else s.rd a := by
  obtain ⟨i, only⟩ := ethClassWrite_eq s n word v
  rw [only]
  exact rd_wr s _ a v

theorem ethClassWrite_ing_later (s : State) (n v : Nat) {word : Nat} (later : word ≠ 0) : (s.ethClassWrite n word v).ing = s.ing := by
  rw [State.ethClassWrite, if_neg later, wr_ing]

theorem ethClassWrite_first_classes (s : State) (n v : Nat) :
    (s.ethClassWrite n 0 v).ing.classes =
      Tab.write (fun _ => 0) s.ing.classes n (BitVec.ofNat 512 ((s.wr (Reg.ingEthClass n + 4 * 0) v).rdWords (Reg.ingEthClass n) 16)) := by
  simp only [State.ethClassWrite, if_true, wr_ing]

/-- Word 0 puts the registers of its entry, as the write leaves them, in force for that entry alone. -/
theorem read_ethClassWrite_first (s : State) (n v m : Nat) :
    Tab.read (fun _ => 0) (s.ethClassWrite n 0 v).ing.classes m =
      if m = n then BitVec.ofNat 512 ((s.ethClassWrite n 0 v).rdWords (Reg.ingEthClass n) 16) else Tab.read (fun _ => 0) s.ing.classes m := by
  have words : (s.ethClassWrite n 0 v).rdWords (Reg.ingEthClass n) 16 = (s.wr (Reg.ingEthClass n + 4 * 0) v).rdWords (Reg.ingEthClass n) 16 :=
    rdWords_congr fun _ _ => by rw [ethClassWrite_rd, rd_wr]
  rw [ethClassWrite_first_classes, read_write, words]

theorem exec_ingEthClassWrite {s : State} (n : Fin 128) (word : Fin 16) (v : Word) (live : s.fnLive 0 = true) (started : s.sec.started = true) :
    exec (.ingEthClassWrite n word v) s = .next ((s.ethClassWrite n word v.toNat).finish s.pending) := by
  rw [← whenUp_up (fun x => x.ethClassWrite n word v.toNat) live started]
  rfl

/-- Settles O15: the write of a register word, and for word 0 the entry put in force from the registers that the end of the command leaves. -/
theorem classEntryTakesEffectWithItsFirstWord : Obligations.ClassEntryTakesEffectWithItsFirstWord := by
  unfold Obligations.ClassEntryTakesEffectWithItsFirstWord
  intro s n word v live started
  obtain ⟨i, only⟩ := ethClassWrite_eq s n word v.toNat
  refine ⟨_, exec_ingEthClassWrite n word v live started, ?written, sameMem_finish (by rw [only]; rfl) (by rw [only]; rfl),
    sameOutside_finish (by rw [only]; rfl) (by rw [only]; rfl), sameRegs_finish ?frame, ?later, ?first⟩
  case written =>
    rw [finish_rd _ _ (endReg_ingEthClass n.isLt word.isLt), ethClassWrite_rd, if_pos rfl]
    exact Nat.mod_eq_of_lt v.isLt
  case frame =>
    intro a sel _
    rw [ethClassWrite_rd, if_neg (of_decide_eq_false sel)]
  case later =>
    intro later
    rw [finish_ing, ethClassWrite_ing_later s n v.toNat (Fin.val_ne_zero_iff.mpr later)]
  case first =>
    rintro rfl m
    rw [finish_ing, finish_rdWords_ingEthClass _ _ n.isLt]
    exact read_ethClassWrite_first s n v.toNat m

end Sys2Proof.StreamIngress

/-!
# Descriptors in use: sessions, views and trackers (R106, R107, Table 10.2)

A descriptor in use answers a write with an error event and nothing else. What such an event leaves at the end of a command stands once, then each of the three writes comes down to it, then the statement about them.
-/
namespace Sys2Proof.DescriptorsInUse
open Sys2Proof Sys2Proof.Machine Sys2Proof.Laws

/-- A command that only raises an error event: its sticky bit is set (R436), and beside its error register at most the pending bit of vector 1 changes. -/
theorem raise_finish_effect {s : State} {e : ErrEvent} {r : Nat} (awake : s.pins.porLow = false) (inReg : errReg e.idx e.unit = r)
    (notEnd : endReg r = false) (inWord : e.bit < 32) (q : List Instr) :
    ((s.raise e).finish q).bitAt r e.bit = true ∧ s.sameMem ((s.raise e).finish q) ∧
      s.sameRegs ((s.raise e).finish q) (fun a => decide (a = r) || decide (a = msixPba 0 1)) := by
  subst inReg
  refine ⟨?sticky, sameMem_finish (raise_mem s e) (raise_ecc s e), sameRegs_finish ?frame⟩
  case sticky => rw [finish_bitAt _ _ _ notEnd, raise_bit s e awake inWord]
  case frame =>
    intro a sel _
    obtain ⟨notErr, notPba⟩ : a ≠ errReg e.idx e.unit ∧ a ≠ msixPba 0 1 := by simpa using sel
    exact raise_rd s e notErr notPba

/-! ### The three writes -/

/-- ENC_ERR.desc_busy answers for a session that is not idle (R106). -/
theorem encDescWrite_busy {s : State} {n : Nat} (busy : s.sessState n ≠ 0) (f word v : Nat) : s.encDescWrite f n word v = s.encEvent 0 n :=
  if_pos busy

/-- PFE_ERR.view_busy answers for a stream that is not idle, or whose decoder is not (R107). -/
theorem viewWrite_busy {s : State} {st : Nat} (busy : s.stRun st ≠ 0 ∨ st < 64 ∧ s.decState st ≠ 0) (view word v : Nat) :
    s.viewWrite st view word v = s.pfeEvent 1 st 0xFFFFFFFFFFFFFFFF :=
  if_pos (by simpa using busy)

/-- TRK_ERR.desc_busy answers for a tracker descriptor that is enabled (Table 10.2). -/
theorem trkDescWrite_enabled {s : State} {st : Nat} (enabled : s.trkOn st = true) (word v : Nat) : s.trkDescWrite st word v = s.trkEvent 6 st :=
  if_pos enabled

theorem exec_encSessDescWrite {s : State} (f n word : Fin 16) (v : Word) (live : s.fnLive f = true) (started : s.sec.started = true) :
    exec (.encSessDescWrite f n word v) s = .next ((s.encDescWrite f n word v.toNat).finish s.pending) := by
  rw [← whenUp_up (fun x => x.encDescWrite f n word v.toNat) live started]
  rfl

theorem exec_viewDescriptorWrite {s : State} (st : Fin 96) (view : Fin 4) (word : Fin 16) (v : Word) (live : s.fnLive 0 = true)
    (started : s.sec.started = true) :
    exec (.viewDescriptorWrite st view word v) s = .next ((s.viewWrite st view word v.toNat).finish s.pending) := by
  rw [← whenUp_up (fun x => x.viewWrite st view word v.toNat) live started]
  rfl

theorem exec_trackerDescWrite {s : State} (st : Fin 96) (word : Fin 16) (v : Word) (live : s.fnLive 0 = true) (started : s.sec.started = true) :
    exec (.trackerDescWrite st word v) s = .next ((s.trkDescWrite st word v.toNat).finish s.pending) := by
  rw [← whenUp_up (fun x => x.trkDescWrite st word v.toNat) live started]
  rfl

/-- Settles O16: each write to a descriptor in use is its block's error event alone. -/
theorem busyDescriptorsAreLeftAlone : Obligations.BusyDescriptorsAreLeftAlone := by
  unfold Obligations.BusyDescriptorsAreLeftAlone
  intro s word v started
  refine ⟨fun f n live busy => ⟨_, exec_encSessDescWrite f n word v live started, ?session⟩,
    fun st view live busy => ⟨_, exec_viewDescriptorWrite st view word v live started, ?view⟩,
    fun st live enabled => ⟨_, exec_trackerDescWrite st word v live started, ?tracker⟩⟩
  case session =>
    rw [encDescWrite_busy busy]
    exact raise_finish_effect (r := Reg.encErr) (TimingAndPower.fnLive_porHigh live) rfl (by decide) (by decide : 0 < 32) _
  case view =>
    rw [viewWrite_busy (.inl busy)]
    exact raise_finish_effect (r := Reg.pfeErr) (TimingAndPower.fnLive_porHigh live) rfl (by decide) (by decide : 1 < 32) _
  case tracker =>
    rw [trkDescWrite_enabled enabled]
    exact raise_finish_effect (r := Reg.trkErr) (TimingAndPower.fnLive_porHigh live) rfl (by decide) (by decide : 6 < 32) _

end Sys2Proof.DescriptorsInUse

/-!
# Tiles and scheduling: slot starts, issue checks and rejects (R211, R213, R221, R223)

What a change of one core leaves of the state, which descriptors a core keeps and hands back when its slot starts, then the statements about the escapement and about rejected descriptors.
-/
namespace Sys2Proof.TilesAndScheduling
open Sys2Proof Sys2Proof.Machine Sys2Proof.Laws

/-! ### One core changed -/

theorem core_setCore (s : State) (c d : Nat) (k : Core) : (s.setCore c k).core d = if d = c then k else s.core d :=
  read_write _ _ _ _ _

/-- A core changed: the table of cores, and the word of TC_STATUS. -/
theorem updCore_eq (s : State) (c : Nat) (f : Core → Core) : ∃ v, s.updCore c f = (s.setCore c (f (s.core c))).wr (Reg.tcStatus c) v := by
  rw [State.updCore, State.showCore]
  exact ⟨_, rfl⟩

theorem core_updCore (s : State) (c d : Nat) (f : Core → Core) : (s.updCore c f).core d = if d = c then f (s.core c) else s.core d := by
  obtain ⟨v, shown⟩ := updCore_eq s c f
  rw [shown]
  exact core_setCore s c d _

theorem core_updCore_same (s : State) (c : Nat) (f : Core → Core) : (s.updCore c f).core c = f (s.core c) := by
  rw [core_updCore, if_pos rfl]

theorem core_updCore_other (s : State) {c d : Nat} (f : Core → Core) (h : d ≠ c) : (s.updCore c f).core d = s.core d := by
  rw [core_updCore, if_neg h]

@[simp] theorem updCore_pln (s : State) (c : Nat) (f : Core → Core) : (s.updCore c f).pln = s.pln := by
  obtain ⟨v, shown⟩ := updCore_eq s c f
  rw [shown, wr_pln, State.setCore]

@[simp] theorem updCore_mem (s : State) (c : Nat) (f : Core → Core) : (s.updCore c f).mem = s.mem := by
  obtain ⟨v, shown⟩ := updCore_eq s c f
  rw [shown, wr_mem, State.setCore]

@[simp] theorem updCore_ecc (s : State) (c : Nat) (f : Core → Core) : (s.updCore c f).ecc = s.ecc := by
  obtain ⟨v, shown⟩ := updCore_eq s c f
  rw [shown, wr_ecc, State.setCore]

/-- TC_STATUS follows its core; no other register does. -/
theorem updCore_rd_other (s : State) {c a : Nat} (f : Core → Core) (h : a ≠ Reg.tcStatus c) : (s.updCore c f).rd a = s.rd a := by
  obtain ⟨v, shown⟩ := updCore_eq s c f
  rw [shown, rd_wr_other _ _ h]
  rfl

theorem core_finish (s : State) (q : List Instr) (c : Nat) : (s.finish q).core c = s.core c := by
  rw [State.core, finish_cores, State.core]

theorem core_plnErr (s : State) (b p core code addr c : Nat) : (s.plnErr b p core code addr).core c = s.core c := by
  rw [State.core, State.plnErr, raise_cores, State.core]

/-- Only registers, the table of cores and the descriptors handed back to the planner differ. -/
def SameBesideCores (s t : State) : Prop :=
  ∃ regs cores returned, t = { s with regs := regs, cores := cores, pln := { s.pln with returned := returned } }

theorem SameBesideCores.refl (s : State) : SameBesideCores s s := ⟨s.regs, s.cores, s.pln.returned, rfl⟩

theorem SameBesideCores.trans {s t u : State} (first : SameBesideCores s t) (second : SameBesideCores t u) : SameBesideCores s u := by
  obtain ⟨_, _, _, rfl⟩ := first
  obtain ⟨_, _, _, rfl⟩ := second
  exact ⟨_, _, _, rfl⟩

/-- What a change of core `c` leaves alone: registers but its TC_STATUS, the other cores, and what is no part of a core. -/
structure TouchesCore (c : Nat) (s t : State) : Prop where
  only : SameBesideCores s t
  regs : ∀ a, a ≠ Reg.tcStatus c → t.rd a = s.rd a
  others : ∀ d, d ≠ c → t.core d = s.core d

theorem TouchesCore.refl (c : Nat) (s : State) : TouchesCore c s s :=
  ⟨.refl s, fun _ _ => rfl, fun _ _ => rfl⟩

theorem TouchesCore.trans {c : Nat} {s t u : State} (first : TouchesCore c s t) (second : TouchesCore c t u) : TouchesCore c s u :=
  ⟨first.only.trans second.only, fun a h => (second.regs a h).trans (first.regs a h), fun d h => (second.others d h).trans (first.others d h)⟩

theorem touchesCore_updCore (s : State) (c : Nat) (f : Core → Core) : TouchesCore c s (s.updCore c f) := by
  refine ⟨?only, fun a h => updCore_rd_other s f h, fun d h => core_updCore_other s f h⟩
  obtain ⟨v, shown⟩ := updCore_eq s c f
  exact ⟨_, _, s.pln.returned, shown⟩

/-! ### The descriptors that a core has not begun to run -/

/-- The descriptors in the FIFO and in phases 1 and 2 of a core. -/
def unissued (k : Core) : Nat := k.fifo.length + k.wait1.toList.length + k.prep.toList.length

/-- The tile that waits enters a free phase 2: it stays with its core, whose slot stays. -/
theorem enterPhase2_cases (s : State) (c : Nat) : s.enterPhase2 c = s ∨ ∃ f : Core → Core, s.enterPhase2 c = s.updCore c f ∧
    unissued (f (s.core c)) = unissued (s.core c) ∧ (f (s.core c)).slotNow = (s.core c).slotNow := by
  unfold State.enterPhase2
  split
  case h_1 t free waits => exact .inr ⟨_, rfl, by simp [unissued, free, waits], rfl⟩
  case h_2 => exact .inl rfl

theorem touchesCore_enterPhase2 (s : State) (c : Nat) : TouchesCore c s (s.enterPhase2 c) := by
  obtain stays | ⟨f, moves, _, _⟩ := enterPhase2_cases s c
  · rw [stays]; exact .refl c s
  · rw [moves]; exact touchesCore_updCore s c f

theorem enterPhase2_core (s : State) (c : Nat) : unissued ((s.enterPhase2 c).core c) = unissued (s.core c) ∧
    ((s.enterPhase2 c).core c).slotNow = (s.core c).slotNow := by
  obtain stays | ⟨f, moves, count, slot⟩ := enterPhase2_cases s c
  · rw [stays]; exact ⟨rfl, rfl⟩
  · rw [moves, core_updCore_same]; exact ⟨count, slot⟩

@[simp] theorem enterPhase2_pln (s : State) (c : Nat) : (s.enterPhase2 c).pln = s.pln := by
  obtain stays | ⟨f, moves, _, _⟩ := enterPhase2_cases s c
  · rw [stays]
  · rw [moves, updCore_pln]

/-! ### A reclaim (R223) -/

theorem length_keepMarks (owner : Nat) (chained : Bool) (l : List Tile) : (keepMarks owner chained l).length = l.length := by
  induction l generalizing chained with
  | nil => rfl
  | cons t l ih => simp [keepMarks, ih]

/-- The descriptors whose mark says that they go back. -/
def sentBack (l : List Tile) (marks : List Bool) : List Tile := (l.zip marks).filterMap (fun e => if e.2 then none else some e.1)

/-- The descriptors whose mark says that they stay. -/
def kept (l : List Tile) (marks : List Bool) : List Tile := ((l.zip marks).filter (fun e => e.2)).map (fun e => e.1)

@[simp] theorem sentBack_cons (t : Tile) (l : List Tile) (m : Bool) (marks : List Bool) :
    sentBack (t :: l) (m :: marks) = if m then sentBack l marks else t :: sentBack l marks := by cases m <;> rfl

@[simp] theorem kept_cons (t : Tile) (l : List Tile) (m : Bool) (marks : List Bool) :
    kept (t :: l) (m :: marks) = if m then t :: kept l marks else kept l marks := by cases m <;> rfl

/-- Every marked descriptor stays or goes back. -/
theorem kept_add_sentBack {l : List Tile} {marks : List Bool} (h : marks.length = l.length) :
    (kept l marks).length + (sentBack l marks).length = l.length := by
  induction l generalizing marks with
  | nil => rfl
  | cons t l ih =>
    obtain _ | ⟨m, ms⟩ := marks
    · cases h
    · have rest := ih (Nat.succ.inj h)
      rw [kept_cons, sentBack_cons]
      split
      · rw [List.length_cons, List.length_cons]
        omega
      · rw [List.length_cons, List.length_cons]
        omega

/-- A place that holds at most one descriptor keeps it or sends it back, by the first mark where it holds one. -/
theorem place_add_sentBack (place : Option Tile) (l : List Tile) {marks : List Bool} (h : place.toList.length ≤ marks.length) :
    (if place.isNone || marks.headD true then place else none).toList.length + (sentBack (place.toList ++ l) marks).length =
      place.toList.length + (sentBack l (marks.drop place.toList.length)).length := by
  obtain _ | t := place
  · simp
  · obtain _ | ⟨m, ms⟩ := marks
    · cases h
    · cases m
      · simp [Nat.add_comm]
      · simp

/-- Descriptors handed back to the planner. -/
def handBack (s : State) (out : List Tile) : State := { s with pln := { s.pln with returned := s.pln.returned ++ out } }

theorem touchesCore_handBack (c : Nat) (s : State) (out : List Tile) : TouchesCore c s (handBack s out) :=
  ⟨⟨s.regs, s.cores, _, rfl⟩, fun _ _ => rfl, fun _ _ => rfl⟩

theorem discard_slotNow (k : Core) (t : Tile) : (k.discard t).slotNow = k.slotNow := by
  unfold Core.discard Core.setWb
  split
  · rfl
  · split
    · rfl
    · split <;> split <;> rfl

/-- A reclaim changes its core, lets the tile that waits enter phase 2, and hands back what the core no longer holds. -/
theorem reclaim_eq (s : State) (c owner : Nat) : ∃ (k : Core) (out : List Tile),
    s.reclaim c owner = handBack ((s.updCore c (fun _ => k)).enterPhase2 c) out ∧
      unissued k + out.length = unissued (s.core c) ∧ k.slotNow = (s.core c).slotNow := by
  refine ⟨_, _, rfl, ?count, ?slot⟩
  case count =>
    generalize s.core c = k
    generalize hm : keepMarks owner k.chainRun (k.prep.toList ++ k.wait1.toList ++ k.fifo) = marks
    have len : marks.length = k.prep.toList.length + k.wait1.toList.length + k.fifo.length := by
      rw [← hm, length_keepMarks, List.length_append, List.length_append]
    have phase2 := place_add_sentBack k.prep (k.wait1.toList ++ k.fifo) (marks := marks) (by omega)
    have phase1 := place_add_sentBack k.wait1 k.fifo (marks := marks.drop k.prep.toList.length) (by rw [List.length_drop]; omega)
    have queue := kept_add_sentBack (l := k.fifo) (marks := (marks.drop k.prep.toList.length).drop k.wait1.toList.length)
      (by rw [List.length_drop, List.length_drop]; omega)
    rw [← List.append_assoc] at phase2
    simp only [unissued]
    simp only [sentBack, kept] at phase2 phase1 queue
    omega
  case slot =>
    dsimp only
    split
    · split
      · rfl
      · exact discard_slotNow _ _
    · rfl

theorem touchesCore_reclaim (s : State) (c owner : Nat) : TouchesCore c s (s.reclaim c owner) := by
  obtain ⟨k, out, reclaimed, _, _⟩ := reclaim_eq s c owner
  rw [reclaimed]
  exact ((touchesCore_updCore s c _).trans (touchesCore_enterPhase2 _ c)).trans (touchesCore_handBack c _ out)

theorem reclaim_slotNow (s : State) (c owner : Nat) : ((s.reclaim c owner).core c).slotNow = (s.core c).slotNow := by
  obtain ⟨k, out, reclaimed, _, slot⟩ := reclaim_eq s c owner
  rw [reclaimed]
  exact (enterPhase2_core _ c).2.trans (by rw [core_updCore_same, slot])

theorem reclaim_conserves (s : State) (c owner : Nat) : unissued ((s.reclaim c owner).core c) + (s.reclaim c owner).pln.returned.length =
    unissued (s.core c) + s.pln.returned.length := by
  obtain ⟨k, out, reclaimed, count, _⟩ := reclaim_eq s c owner
  have stay : unissued ((s.reclaim c owner).core c) = unissued k := by
    rw [reclaimed]
    exact (enterPhase2_core _ c).1.trans (by rw [core_updCore_same])
  have back : (s.reclaim c owner).pln.returned = s.pln.returned ++ out := by
    rw [reclaimed, handBack, enterPhase2_pln, updCore_pln]
  rw [stay, back, List.length_append]
  omega

/-! ### A slot start on one core (R221 to R223) -/

/-- A core in slot `i`, before the slot is given to a partition. -/
def slotEntered (s : State) (c i ready : Nat) : State := s.updCore c (fun k => { k with slotNow := i, ready := ready })

/-- At a slot start a core takes a holder or none and moves no descriptor, or its owner reclaims it. -/
theorem startSlot_cases (s : State) (c i ready : Nat) :
    (∃ f : Core → Core, s.startSlot c i ready = (slotEntered s c i ready).updCore c f ∧
        ∀ k, unissued (f k) = unissued k ∧ (f k).slotNow = k.slotNow) ∨
      ∃ owner, s.startSlot c i ready = (slotEntered s c i ready).reclaim c owner := by
  rw [State.startSlot, ← slotEntered]
  dsimp only
  split
  case isTrue idle =>
    left
    split
    · exact ⟨_, rfl, fun _ => ⟨rfl, rfl⟩⟩
    · exact ⟨_, rfl, fun _ => ⟨rfl, rfl⟩⟩
  case isFalse owned =>
    split
    · exact .inl ⟨_, rfl, fun _ => ⟨rfl, rfl⟩⟩
    · exact .inr ⟨_, rfl⟩

theorem touchesCore_startSlot (s : State) (c i ready : Nat) : TouchesCore c s (s.startSlot c i ready) := by
  refine (touchesCore_updCore s c _ : TouchesCore c s (slotEntered s c i ready)).trans ?_
  obtain ⟨f, held, _⟩ | ⟨owner, reclaimed⟩ := startSlot_cases s c i ready
  · rw [held]; exact touchesCore_updCore _ c f
  · rw [reclaimed]; exact touchesCore_reclaim _ c owner

theorem slotEntered_core (s : State) (c i ready : Nat) :
    unissued ((slotEntered s c i ready).core c) = unissued (s.core c) ∧ ((slotEntered s c i ready).core c).slotNow = i := by
  rw [slotEntered, core_updCore_same]
  exact ⟨rfl, rfl⟩

theorem startSlot_slotNow (s : State) (c i ready : Nat) : ((s.startSlot c i ready).core c).slotNow = i := by
  obtain ⟨f, held, keeps⟩ | ⟨owner, reclaimed⟩ := startSlot_cases s c i ready
  · rw [held, core_updCore_same, (keeps _).2, (slotEntered_core s c i ready).2]
  · rw [reclaimed, reclaim_slotNow, (slotEntered_core s c i ready).2]

theorem startSlot_conserves (s : State) (c i ready : Nat) :
    unissued ((s.startSlot c i ready).core c) + (s.startSlot c i ready).pln.returned.length = unissued (s.core c) + s.pln.returned.length := by
  have entered : (slotEntered s c i ready).pln = s.pln := updCore_pln s c _
  obtain ⟨f, held, keeps⟩ | ⟨owner, reclaimed⟩ := startSlot_cases s c i ready
  · rw [held, core_updCore_same, (keeps _).1, (slotEntered_core s c i ready).1, updCore_pln, entered]
  · rw [reclaimed, reclaim_conserves, (slotEntered_core s c i ready).1, entered]

/-! ### A slot start on the cores in turn (R221) -/

/-- The descriptors that the first `n` cores have not begun to run, with those at the planner. -/
def unissuedBelow (n : Nat) (s : State) : Nat := ((List.range n).map (fun c => unissued (s.core c))).sum + s.pln.returned.length

theorem unissuedBelow_succ (n : Nat) (s : State) : unissuedBelow (n + 1) s = unissued (s.core n) + unissuedBelow n s := by
  simp only [unissuedBelow, List.range_succ, List.map_append, List.sum_append, List.map_singleton, List.sum_singleton]
  omega

/-- A change of core `n` changes the count of the cores below it by what the planner gets alone. -/
theorem unissuedBelow_of_touchesCore {n : Nat} {s t : State} (h : TouchesCore n s t) :
    unissuedBelow n t + s.pln.returned.length = unissuedBelow n s + t.pln.returned.length := by
  have same : (List.range n).map (fun c => unissued (t.core c)) = (List.range n).map (fun c => unissued (s.core c)) :=
    List.map_congr_left fun c hc => by rw [h.others c (List.mem_range.mp hc).ne]
  simp only [unissuedBelow, same]
  omega

/-- Slot `i` begun on the first `n` cores: what it leaves alone, the slot of each core, and that no descriptor is lost. -/
structure SlotBegun (i n : Nat) (s t : State) : Prop where
  only : SameBesideCores s t
  regs : ∀ a, (∀ c < n, a ≠ Reg.tcStatus c) → t.rd a = s.rd a
  slot : ∀ c < n, (t.core c).slotNow = i
  later : ∀ c, n ≤ c → t.core c = s.core c
  conserved : unissuedBelow n t = unissuedBelow n s

theorem slotBegun_none (i : Nat) (s : State) : SlotBegun i 0 s s :=
  ⟨.refl s, fun _ _ => rfl, fun _ h => absurd h (Nat.not_lt_zero _), fun _ _ => rfl, rfl⟩

theorem SlotBegun.startSlot {i n : Nat} {s t : State} (begun : SlotBegun i n s t) (ready : Nat) :
    SlotBegun i (n + 1) s (t.startSlot n i ready) := by
  have touches := touchesCore_startSlot t n i ready
  refine ⟨begun.only.trans touches.only, fun a apart => ?regs, fun c hc => ?slot, fun c hc => ?later, ?conserved⟩
  case regs =>
    rw [touches.regs a (apart n n.lt_succ_self), begun.regs a fun c hc => apart c (Nat.lt_succ_of_lt hc)]
  case slot =>
    obtain below | rfl := Nat.lt_succ_iff_lt_or_eq.mp hc
    · rw [touches.others c below.ne, begun.slot c below]
    · exact startSlot_slotNow t c i ready
  case later => rw [touches.others c (Nat.ne_of_gt hc), begun.later c (Nat.le_of_succ_le hc)]
  case conserved =>
    have here := startSlot_conserves t n i ready
    have below := unissuedBelow_of_touchesCore touches
    rw [unissuedBelow_succ, unissuedBelow_succ, ← begun.conserved, ← begun.later n (Nat.le_refl n)]
    omega

theorem slotBegun_loopUp (i n : Nat) (ready : Nat → Nat) (s : State) :
    SlotBegun i n s (loopUp n (fun c x => x.startSlot c i (ready c)) s) := by
  induction n with
  | zero => exact slotBegun_none i s
  | succ n ih => exact ih.startSlot (ready n)

theorem slotBegun_escapement (s : State) (ready : List Nat) : SlotBegun (s.now % 1000000 / 50000) 8 s (s.escapement ready) := by
  rw [State.escapement]
  exact slotBegun_loopUp _ 8 _ s

theorem exec_escapementSlotStart {s : State} (ready : List (BitVec 16)) (live : s.live = true) :
    exec (.escapementSlotStart ready) s = .next ((s.escapement (ready.map (fun r => r.toNat))).finish s.pending) := by
  rw [← whenLive_live (fun x => x.escapement (ready.map (fun r => r.toNat))) live]
  rfl

/-- Settles O17: core by core, a slot start moves descriptors only between its core and the planner. -/
theorem everySlotStartsOnEveryCore : Obligations.EverySlotStartsOnEveryCore := by
  unfold Obligations.EverySlotStartsOnEveryCore
  intro s ready live
  have begun := slotBegun_escapement s (ready.map (fun r => r.toNat))
  obtain ⟨_, _, _, only⟩ := begun.only
  refine ⟨_, exec_escapementSlotStart ready live, sameMem_finish (by rw [only]) (by rw [only]),
    sameOutside_finish (by rw [only]) (by rw [only]), fun c hc => ?slot, ?conserved, sameRegs_finish fun a sel _ => ?frame⟩
  case slot => rw [core_finish, begun.slot c hc]
  case conserved =>
    simp only [core_finish, finish_pln]
    exact begun.conserved
  case frame =>
    refine begun.regs a fun c hc => ?_
    simpa using List.any_eq_false.mp sel c (List.mem_range.mpr hc)

/-! ### A descriptor that fails an issue check (R211, R213) -/

/-- A reject put last among the planner's. -/
def rejectListed (s : State) (r : Reject) : State := { s with pln := { s.pln with rejects := s.pln.rejects ++ [r] } }

theorem rejectListed_core (s : State) (r : Reject) (c : Nat) : (rejectListed s r).core c = s.core c := rfl
theorem rejectListed_rd (s : State) (r : Reject) (a : Nat) : (rejectListed s r).rd a = s.rd a := rfl
@[simp] theorem rejectListed_mem (s : State) (r : Reject) : (rejectListed s r).mem = s.mem := rfl
@[simp] theorem rejectListed_ecc (s : State) (r : Reject) : (rejectListed s r).ecc = s.ecc := rfl

/-- A core without the head of its FIFO, whose chain ends with it. -/
def dropHead (rest : List Tile) (k : Core) : Core := { k with fifo := rest, chainOpen := none, chainEst := 0 }

theorem tileIssue_rejected {s : State} {c code : Nat} {x : Tile} {rest : List Tile} (head : (s.core c).fifo = x :: rest)
    (free : (s.core c).wait1 = none) (granted : s.isGranted c x.part = true) (fails : s.issueCode c x = some code) :
    s.tileIssue c = (rejectListed (s.updCore c (dropHead rest)) { pair := x.pair, core := c, code := code, tile := x }).plnErr 0 x.part c code x.ident := by
  rw [State.tileIssue]
  simp only [head, fails]
  exact if_neg (by simp [free, granted])

theorem exec_tileIssue {s : State} (core : Fin 8) (live : s.live = true) :
    exec (.tileIssue core) s = .next ((s.tileIssue core).finish s.pending) := by
  rw [← whenLive_live (fun x => x.tileIssue core) live]
  rfl

/-- Settles O18: the head leaves its core for the planner's list, and what follows is the planner's event alone. -/
theorem rejectedDescriptorLeavesTheFifo : Obligations.RejectedDescriptorLeavesTheFifo := by
  unfold Obligations.RejectedDescriptorLeavesTheFifo
  intro s core x rest code live head free granted fails
  refine ⟨_, exec_tileIssue core live, ?_⟩
  rw [tileIssue_rejected head free granted fails]
  refine ⟨?head, ?waits, ?prep, ?listed, sameMem_finish ?mem ?ecc, fun c other => ?others, sameRegs_finish fun a sel _ => ?frame⟩
  case head => rw [core_finish, core_plnErr, rejectListed_core, core_updCore_same, dropHead]
  case waits => rw [core_finish, core_plnErr, rejectListed_core, core_updCore_same, dropHead, free]
  case prep => rw [core_finish, core_plnErr, rejectListed_core, core_updCore_same, dropHead]
  case listed => rw [finish_pln, State.plnErr, raise_pln, rejectListed, updCore_pln]
  case mem => rw [State.plnErr, raise_mem, rejectListed_mem, updCore_mem]
  case ecc => rw [State.plnErr, raise_ecc, rejectListed_ecc, updCore_ecc]
  case others => rw [core_finish, core_plnErr, rejectListed_core, core_updCore_other _ _ other]
  case frame =>
    simp only [Bool.or_eq_false_iff, decide_eq_false_iff_not] at sel
    obtain ⟨⟨status, err⟩, pba⟩ := sel
    rw [State.plnErr, raise_rd _ _ err pba, rejectListed_rd, updCore_rd_other _ _ status]

/-! ### A reject of class S (R213, Table 13.6) -/

theorem rejectResponse_classS {s : State} {r : Reject} {rest : List Reject} (oldest : s.pln.rejects = r :: rest)
    (isS : s.classS r.tile.part = true) :
    s.rejectResponse = ({ s with pln := { s.pln with rejects := rest } } : State).fault
      { cause := 0x03, subsys := 8, unit := r.core, part := some r.tile.part } := by
  rw [State.rejectResponse, oldest]
  exact if_pos isS

theorem exec_tileRejectResponse {s : State} (live : s.live = true) :
    exec .tileRejectResponse s = .next (s.rejectResponse.finish s.pending) := by
  rw [← whenLive_live State.rejectResponse live]
  rfl

/-- Settles O19: the reject leaves the planner's list, and its report starts on its way to the safety island. -/
theorem rejectInClassSIsAFault : Obligations.RejectInClassSIsAFault := by
  unfold Obligations.RejectInClassSIsAFault
  intro s r rest live oldest isS
  refine ⟨_, exec_tileRejectResponse live, ?_⟩
  rw [rejectResponse_classS oldest isS]
  exact ⟨by simp, by rw [finish_saf]; rfl, sameMem_finish rfl rfl, sameOutside_finish rfl rfl, sameRegs_finish fun _ _ _ => rfl⟩

end Sys2Proof.TilesAndScheduling

/-!
# Results: a question about a frame (R244, Table 10.12)

What a write of COL_STRM_QUERY leaves in its two registers, an equation per answer, then the statement about it.
-/
namespace Sys2Proof.FrameQueries
open Sys2Proof Sys2Proof.Machine Sys2Proof.Laws

/-! ### The registers of a question at the end of a command -/

/-- The end of a command writes no register of a stream in the collector. -/
theorem endReg_ofStream {a : Nat} (lo : 0xC08000 ≤ a) (hi : a < 0xC0A000) : endReg a = false := by
  simp only [endReg, Bool.or_eq_false_iff, Bool.and_eq_false_iff, decide_eq_false_iff_not]
  simp only [Reg.safStatus, Reg.mgmtStatus, Reg.errSummary, Reg.halSyncValue]
  omega

theorem endReg_colStrmQuery (st : Fin 96) : endReg (Reg.colStrmQuery st) = false :=
  endReg_ofStream (by simp only [Reg.colStrmQuery]; omega) (by simp only [Reg.colStrmQuery]; omega)

theorem endReg_colStrmResult (st : Fin 96) : endReg (Reg.colStrmResult st) = false :=
  endReg_ofStream (by simp only [Reg.colStrmResult]; omega) (by simp only [Reg.colStrmResult]; omega)

theorem colStrmQuery_ne_colStrmResult (st : Nat) : Reg.colStrmQuery st ≠ Reg.colStrmResult st := by
  simp only [Reg.colStrmQuery, Reg.colStrmResult]
  omega

/-! ### A counter asked about, and its answer -/

/-- The counter `v` kept and the word `res` answered. -/
def answered (s : State) (st v res : Nat) : State := (s.wr (Reg.colStrmQuery st) v).wr (Reg.colStrmResult st) res

theorem answered_rd_result (s : State) (st v res : Nat) : (answered s st v res).rd (Reg.colStrmResult st) = res % 2 ^ 32 :=
  rd_wr_same _ _ _

theorem finish_answered_rd_result (s : State) (st : Fin 96) (v res : Nat) (q : List Instr) :
    ((answered s st v res).finish q).rd (Reg.colStrmResult st) = res % 2 ^ 32 := by
  rw [finish_rd _ _ (endReg_colStrmResult st), answered_rd_result]

theorem answered_rd_query (s : State) (st v res : Nat) : (answered s st v res).rd (Reg.colStrmQuery st) = v % 2 ^ 32 := by
  rw [answered, rd_wr_other _ _ (colStrmQuery_ne_colStrmResult st), rd_wr_same]

theorem answered_rd_other (s : State) (v res : Nat) {st a : Nat} (query : a ≠ Reg.colStrmQuery st) (result : a ≠ Reg.colStrmResult st) :
    (answered s st v res).rd a = s.rd a := by
  rw [answered, rd_wr_other _ _ result, rd_wr_other _ _ query]

theorem queryFrame_answered (s : State) (st v : Nat) : ∃ res, s.queryFrame st v = answered s st v res := ⟨_, rfl⟩

theorem queryFrame_open {s : State} {st v : Nat} (isOpen : s.frameOpen st v = true) : s.queryFrame st v = answered s st v 0 := by
  simp only [State.queryFrame, isOpen, Bool.true_or, if_true, answered]

/-- Serial comparison: a distance of 0, or of half the range and more, is not newer (Table 10.12). -/
theorem notNewer {d : Nat} (old : d = 0 ∨ 2 ^ 31 ≤ d) : (decide (0 < d) && decide (d < 2 ^ 31)) = false := by
  simp only [Bool.and_eq_false_iff, decide_eq_false_iff_not]
  omega

section NotOpen
variable {s : State} {st v : Nat} (notOpen : s.frameOpen st v = false) (someClosed : (s.closes st).isEmpty = false)
  (old : (v + 2 ^ 32 - s.rd (Reg.colStrmLastClose st)) % 2 ^ 32 = 0 ∨ 2 ^ 31 ≤ (v + 2 ^ 32 - s.rd (Reg.colStrmLastClose st)) % 2 ^ 32)
include notOpen someClosed old

theorem queryFrame_forgotten (lost : (s.closes st).find? (fun c => c.counter = v) = none) : s.queryFrame st v = answered s st v 3 := by
  simp only [State.queryFrame, notOpen, someClosed, notNewer old, lost, Bool.or_false, Bool.false_eq_true, if_false, answered]

theorem queryFrame_kept {c : ClosedFrame} (kept : (s.closes st).find? (fun c => c.counter = v) = some c) :
    s.queryFrame st v = answered s st v ((if c.withdrawn then 2 else 1) + 4 * c.cause) := by
  have word : (if c.withdrawn then 2 + c.cause <<< 2 else 1 + c.cause <<< 2) = (if c.withdrawn then 2 else 1) + 4 * c.cause := by
    rw [Nat.shiftLeft_eq, Nat.mul_comm c.cause]
    split <;> rfl
  simp only [State.queryFrame, notOpen, someClosed, notNewer old, kept, word, Bool.or_false, Bool.false_eq_true, if_false, answered]

end NotOpen

theorem exec_colStrmQueryWrite {s : State} (st : Fin 96) (v : Word) (live : s.fnLive 0 = true) (started : s.sec.started = true) :
    exec (.colStrmQueryWrite st v) s = .next ((s.queryFrame st v.toNat).finish s.pending) := by
  rw [← whenUp_up (fun x => x.queryFrame st v.toNat) live started]
  rfl

/-- Settles O20: whatever the answer, two registers change; the answer is that of the frame's case in Table 10.12. -/
theorem frameQueryAnswersFromTheCloses : Obligations.FrameQueryAnswersFromTheCloses := by
  unfold Obligations.FrameQueryAnswersFromTheCloses
  intro s st v live started
  obtain ⟨res, only⟩ := queryFrame_answered s st v.toNat
  refine ⟨_, exec_colStrmQueryWrite st v live started, ?counter, sameMem_finish (by rw [only]; rfl) (by rw [only]; rfl),
    sameOutside_finish (by rw [only]; rfl) (by rw [only]; rfl), by rw [finish_col, only]; rfl, sameRegs_finish ?frame, ?isOpen, ?notOpen⟩
  case counter =>
    rw [finish_rd _ _ (endReg_colStrmQuery st), only, answered_rd_query]
    exact Nat.mod_eq_of_lt v.isLt
  case frame =>
    intro a sel _
    simp only [Bool.or_eq_false_iff, decide_eq_false_iff_not] at sel
    obtain ⟨query, result⟩ := sel
    rw [only, answered_rd_other s _ _ query result]
  case isOpen =>
    intro isOpen
    rw [queryFrame_open isOpen]
    exact finish_answered_rd_result s st v.toNat 0 _
  case notOpen =>
    intro notOpen someClosed old
    refine ⟨fun lost => ?forgotten, fun c kept => ?kept⟩
    case forgotten =>
      rw [queryFrame_forgotten notOpen someClosed old lost]
      exact finish_answered_rd_result s st v.toNat 3 _
    case kept =>
      rw [queryFrame_kept notOpen someClosed old kept]
      exact finish_answered_rd_result s st v.toNat _ _

end Sys2Proof.FrameQueries

/-!
# Sync objects: signals and resets (R250, R253, Table 11.9)

Beside the write of its own object, a signal or a reset writes no register of a sync object, whatever watches fire: that is followed through every operation a fired watch comes to. Then what the end of a command leaves of an object, and the statements about signals and resets.
-/
namespace Sys2Proof.SyncObjects
open Sys2Proof Sys2Proof.Machine Sys2Proof.Laws

/-! ### Where the registers of the sync objects lie -/

/-- A register word that belongs to no sync object. -/
abbrev ApartFromSync (a : Nat) : Prop := a < Reg.halSyncValue 0 ∨ Reg.halSyncValue 65536 ≤ a

theorem ne_of_apart {a b : Nat} (apart : ApartFromSync a) (own : ¬ ApartFromSync b) : b ≠ a := fun eq => own (eq ▸ apart)

theorem halSyncValue_own {n : Nat} (inSpace : n < 65536) : ¬ ApartFromSync (Reg.halSyncValue n) ∧ ¬ ApartFromSync (Reg.halSyncValue n + 4) := by
  simp only [ApartFromSync, Reg.halSyncValue]
  omega

theorem msixPba_apart (f : Nat) {v : Nat} (vector : v < 2 ^ 16) : ApartFromSync (msixPba f v) := by
  unfold msixPba vfBase
  simp only [ApartFromSync, Reg.halSyncValue]
  split <;> omega

/-- Two hash masks select one of four channels (R283). -/
theorem chanOf_lt (s : State) (a : Nat) : s.chanOf a < 4 := by
  simp only [State.chanOf, State.hashBit]
  omega

/-- The counters of corrected and of uncorrectable words: of a channel, or of the on-chip memories. -/
theorem errorCount_apart (s : State) (a : Nat) (c : Bool) :
    ApartFromSync (if c then Reg.ddrCeCnt (s.chanOf a) else Reg.memCeCnt) ∧ ApartFromSync (if c then Reg.ddrUeCnt (s.chanOf a) else Reg.memUeCnt) := by
  have channel := chanOf_lt s a
  simp only [ApartFromSync, Reg.ddrCeCnt, Reg.ddrUeCnt, Reg.memCeCnt, Reg.memUeCnt, Reg.halSyncValue]
  cases c <;> simp only [Bool.false_eq_true, if_true, if_false] <;> omega

theorem halQueueDesc_apart (q k : Nat) : ApartFromSync (Reg.halQueueDesc q + k) := by
  simp only [ApartFromSync, Reg.halQueueDesc, Reg.halSyncValue]
  omega

theorem halWatch_apart (w k : Nat) : ApartFromSync (Reg.halWatch w + k) := by
  simp only [ApartFromSync, Reg.halWatch, Reg.halSyncValue]
  omega

/-! ### What leaves every sync object as it was -/

/-- Every register word of the sync objects as before, and the same objects wait for their reset. -/
structure KeepsSync (s t : State) : Prop where
  lateReset : t.hal.lateReset = s.hal.lateReset
  rd : ∀ a, ¬ ApartFromSync a → t.rd a = s.rd a

theorem KeepsSync.refl (s : State) : KeepsSync s s := ⟨rfl, fun _ _ => rfl⟩

/-- A change beside the registers and the list of objects that wait. -/
theorem KeepsSync.beside {s x y : State} (h : KeepsSync s x) (regs : y.regs = x.regs) (waiting : y.hal.lateReset = x.hal.lateReset) : KeepsSync s y :=
  ⟨by rw [waiting, h.lateReset], fun a own => by rw [← h.rd a own, State.rd, regs, State.rd]⟩

section Registers
variable {s x : State} (h : KeepsSync s x)
include h

theorem KeepsSync.wr {a : Nat} (apart : ApartFromSync a) (v : Nat) : KeepsSync s (x.wr a v) :=
  ⟨h.lateReset, fun b own => by rw [rd_wr_other _ _ (ne_of_apart apart own), h.rd b own]⟩

theorem KeepsSync.setFld {a : Nat} (apart : ApartFromSync a) (lo len v : Nat) : KeepsSync s (x.setFld a lo len v) := h.wr apart _

theorem KeepsSync.bump {a : Nat} (apart : ApartFromSync a) (n : Nat) : KeepsSync s (x.bump a n) := h.wr apart _

theorem KeepsSync.wr64 {a : Nat} (low : ApartFromSync a) (high : ApartFromSync (a + 4)) (v : Nat) : KeepsSync s (x.wr64 a v) :=
  (h.wr low _).wr high _

theorem KeepsSync.wrWords {a n : Nat} (below : a + 4 * n ≤ Reg.halSyncValue 0) (v : Nat) : KeepsSync s (x.wrWords a n v) := by
  induction n generalizing x a v with
  | zero => exact h
  | succ n ih => exact ih (h.wr (.inl (by omega)) v) (by omega) _

/-! ### Messages and events -/

theorem KeepsSync.msix (f : Nat) {v : Nat} (vector : v < 2 ^ 16) : KeepsSync s (x.msix f v) :=
  ⟨by rw [msix_hal, h.lateReset], fun a own => by rw [msix_rd _ _ _ (ne_of_apart (msixPba_apart f vector) own), h.rd a own]⟩

theorem KeepsSync.raise {e : ErrEvent} (apart : ApartFromSync (errReg e.idx e.unit)) : KeepsSync s (x.raise e) :=
  ⟨by rw [raise_hal, h.lateReset], fun a own => by
    rw [raise_rd _ _ (ne_of_apart apart own) (ne_of_apart (msixPba_apart 0 (by decide)) own), h.rd a own]⟩

theorem KeepsSync.halErr (b loc : Nat) (p : Option Nat) : KeepsSync s (x.halErr b loc p) := by
  unfold State.halErr
  refine KeepsSync.raise ?_ (show ApartFromSync Reg.halErr by decide)
  split
  · exact h.wr (by decide) _
  · exact h

theorem KeepsSync.fault (r : FaultReport) : KeepsSync s (x.fault r) := h.beside rfl rfl

/-! ### Reads and writes of memory by a device unit (R278 to R280) -/

theorem KeepsSync.memEvent (a bm bd req : Nat) (part : Option Nat) : KeepsSync s (x.memEvent a bm bd req part) := by
  unfold State.memEvent
  split
  · exact h.raise (show ApartFromSync Reg.ddrErr by decide)
  · exact h.raise (show ApartFromSync Reg.memErr by decide)

theorem KeepsSync.putLog (a entry : Nat) : KeepsSync s (x.putLog a entry) := by
  have channel := chanOf_lt x a
  have place : ∀ idx, x.fld idx 0 4 < 16 := fun idx => bits_lt _ 0 4
  unfold State.putLog
  dsimp only
  split
  · have entryNo := place (Reg.ddrElogIdx (x.chanOf a))
    refine (h.wrWords ?_ _).wr (.inl ?_) _ <;> simp only [Reg.ddrElog, Reg.ddrElogIdx, Reg.halSyncValue] at * <;> omega
  · have entryNo := place Reg.memElogIdx
    refine (h.wrWords ?_ _).wr (by decide) _
    simp only [Reg.memElog, Reg.halSyncValue]
    omega

theorem KeepsSync.noteRate (ch a : Nat) : KeepsSync s (x.noteRate ch a) := by
  unfold State.noteRate
  extract_lets sec old n dram y
  have counted : KeepsSync s y := h.beside rfl rfl
  split
  · exact counted.memEvent _ _ _ _ _
  · exact counted

theorem KeepsSync.noteCe (a req : Nat) (part : Option Nat) (bt : Nat) : KeepsSync s (x.noteCe a req part bt) := by
  unfold State.noteCe
  extract_lets dr counted logged
  have kept : KeepsSync s logged := ((h.bump (errorCount_apart x a dr).1 1).memEvent a 0 0 req part).putLog a _
  split
  · exact kept.noteRate _ _
  · exact kept

theorem KeepsSync.countUe (a typ req : Nat) (part : Option Nat) : KeepsSync s (x.countUe a typ req part) := by
  have apart := (errorCount_apart x a (decide (memKind a = some 0))).2
  simp only [decide_eq_true_eq] at apart
  exact ((h.bump apart 1).memEvent a 1 1 req part).putLog a _

theorem KeepsSync.noteUe (a req : Nat) (part : Option Nat) : KeepsSync s (x.noteUe a req part) := by
  unfold State.noteUe State.ueFault
  split
  · exact (h.countUe a 2 req part).fault _
  · exact h.countUe a 2 req part

theorem KeepsSync.noteRead (req : Nat) (part : Option Nat) (a n : Nat) : KeepsSync s (x.noteRead req part a n) := by
  refine foldl_keeps (KeepsSync s) _ _ _ h fun y e kept => ?_
  split
  · exact kept.noteCe _ _ _ _
  · exact kept.noteUe _ _ _

theorem KeepsSync.wrByte (a : Nat) (v : Byte) : KeepsSync s (x.wrByte a v) := h.beside rfl rfl

theorem KeepsSync.withEcc (e : Tab (BitVec 72)) : KeepsSync s { x with ecc := e } := h.beside rfl rfl

theorem KeepsSync.wrBytes (a n v : Nat) : KeepsSync s (x.wrBytes a n v) := by
  induction n generalizing x a v with
  | zero => exact h
  | succ n ih => exact ih (h.wrByte a _) (a + 1) _

theorem KeepsSync.settleWord (req : Nat) (part : Option Nat) (a n : Nat) (e : Nat × BitVec 72) : KeepsSync s (x.settleWord req part a n e) := by
  unfold State.settleWord
  dsimp only
  split
  · exact h.withEcc _
  · split
    · exact (h.noteCe _ _ _ _).withEcc _
    · have zeroed := loopUp_keeps (KeepsSync s) 8 (fun k y => y.wrByte (8 * e.1 + k) 0) x h fun _ _ _ kept => kept.wrByte _ _
      exact (zeroed.memEvent _ _ _ _ _).putLog _ _

theorem KeepsSync.wrMem (a n v : Nat) : KeepsSync s (x.wrMem a n v) :=
  foldl_keeps (KeepsSync s) _ _ _ (h.wrBytes a n v) fun _ e kept => kept.settleWord _ _ _ _ e

/-! ### Watches (R253) -/

theorem KeepsSync.enqueue (q entry : Nat) : KeepsSync s (x.enqueue q entry) := by
  unfold State.enqueue State.qSetP
  dsimp only
  split
  · exact h
  · have moved := fun v => (h.wrMem (x.qEntry q (x.qP q)) 64 entry).wr (halQueueDesc_apart q 32) v
    split
    · exact (moved _).msix _ (bits_lt _ 0 16)
    · exact moved _

theorem KeepsSync.withCopies (copies : List Nat) : KeepsSync s { x with hal := { x.hal with copies := copies } } := h.beside rfl rfl

theorem KeepsSync.fireWatch (w : Nat) : KeepsSync s (x.fireWatch w) := by
  have control : ApartFromSync (Reg.halWatch w) := halWatch_apart w 0
  unfold State.fireWatch
  extract_lets y
  have fired : KeepsSync s y := ((h.setFld control 18 2 0b10).wr64 (halWatch_apart w 40) (halWatch_apart w 44) _).bump
    (show ApartFromSync Reg.halWatchFired by decide) 1
  split
  · exact fired.msix _ (bits_lt _ 0 16)
  · split
    · exact (fired.setFld control 20 1 1).halErr _ _ _
    · exact (fired.noteRead _ _ _ _).enqueue _ _
  · exact fired.withCopies _
  · exact fired

theorem KeepsSync.fireMet (ws : List Nat) : KeepsSync s (x.fireMet ws) := by
  induction ws generalizing x with
  | nil => exact h
  | cons w ws ih =>
    refine ih ?_
    split
    · exact h.fireWatch w
    · exact h

theorem KeepsSync.bumpHalOps : KeepsSync s (x.bump64 Reg.halOps 1) := h.wr64 (by decide) (by decide) _

end Registers

/-! ### The value of an object -/

theorem syncVal_named (s : State) {n : Nat} (named : n ≠ noSync) : s.syncVal n = s.rd64 (Reg.halSyncValue n) := if_neg named

theorem syncVal_lt (s : State) (n : Nat) : s.syncVal n < 2 ^ 64 := by
  have low := rd_lt s (Reg.halSyncValue n)
  have high := rd_lt s (Reg.halSyncValue n + 4)
  unfold State.syncVal State.rd64
  split <;> omega

theorem syncVal_wr64_same (s : State) {n v : Nat} (named : n ≠ noSync) (fits : v < 2 ^ 64) :
    (s.wr64 (Reg.halSyncValue n) v).syncVal n = v := by
  rw [syncVal_named _ named, rd64_wr64_same _ _ _ fits]

theorem KeepsSync.syncVal {s t : State} (h : KeepsSync s t) {n : Nat} (inSpace : n < 65536) : t.syncVal n = s.syncVal n := by
  obtain ⟨low, high⟩ := halSyncValue_own inSpace
  rw [State.syncVal, State.syncVal, State.rd64, State.rd64, h.rd _ low, h.rd _ high]

/-- With no object waiting for its reset, the end of a command leaves every object. -/
theorem KeepsSync.finish {s x : State} (h : KeepsSync s x) (noneWaits : s.hal.lateReset = []) (q : List Instr) : KeepsSync s (x.finish q) := by
  have settled : x.settleResets = x := by rw [State.settleResets, h.lateReset, noneWaits, List.foldl_nil]
  obtain ⟨r, only, frame⟩ := mirror_eq x
  rw [State.finish, settled, only]
  refine ⟨h.lateReset, fun a own => ?_⟩
  have word : Tab.read regReset r a = Tab.read regReset x.regs a :=
    frame a (ne_of_apart (by decide) own) (ne_of_apart (by decide) own) (ne_of_apart (by decide) own)
  rw [← h.rd a own, State.rd, State.rd, ← word]
  rfl

/-! ### A signal (R250) -/

/-- Beside the write of its object, a signal leaves every sync object, whatever watches it fires. -/
theorem keepsSync_signal (s : State) {n amt : Nat} (named : n ≠ noSync) (raises : amt ≠ 0) :
    KeepsSync (s.wr64 (Reg.halSyncValue n) (min (s.syncVal n + amt) (2 ^ 64 - 1))) (s.signal n amt) := by
  have counted := (KeepsSync.refl (s.wr64 (Reg.halSyncValue n) (min (s.syncVal n + amt) (2 ^ 64 - 1)))).bumpHalOps
  rw [State.signal, if_neg (by simp [named, raises])]
  apply KeepsSync.fireMet
  split
  · exact counted.halErr _ _ _
  · exact counted

theorem exec_signal {s : State} (n : BitVec 16) (amt : BitVec 32) (live : s.live = true) :
    exec (.signal none n amt) s = .next ((s.signal n.toNat amt.toNat).finish s.pending) := by
  rw [← whenLive_live (fun x => x.signal n.toNat amt.toNat) live]
  rfl

/-- Settles O21: the object's own write holds the sum, and neither the watches that fire nor the end of the command write an object. -/
theorem signalRaisesAndSaturates : Obligations.SignalRaisesAndSaturates := by
  unfold Obligations.SignalRaisesAndSaturates
  intro s n amt live noneWaits named
  have inSpace : n.toNat < 65536 := n.isLt
  have below := syncVal_lt s n.toNat
  refine ⟨_, exec_signal n amt live, ?_⟩
  by_cases nothing : amt.toNat = 0
  · have unchanged : s.signal n.toNat amt.toNat = s := if_pos (.inr nothing)
    rw [unchanged, ((KeepsSync.refl s).finish noneWaits _).syncVal inSpace]
    omega
  · rw [((keepsSync_signal s named nothing).finish noneWaits _).syncVal inSpace, syncVal_wr64_same s named (by omega)]

/-! ### A reset (R250, Table 11.9) -/

/-- An error event of the halyard network is its capture, then the event. -/
theorem halErr_eq (s : State) (b loc : Nat) (p : Option Nat) : ∃ r, s.halErr b loc p =
    ({ s with regs := r } : State).raise { idx := 12, unit := 0, bit := b, part := p, detail := loc % 65536 } := by
  unfold State.halErr
  dsimp only
  split
  · exact ⟨_, rfl⟩
  · exact ⟨s.regs, rfl⟩

/-- A command that ends in an error event of the halyard network: its bit of HAL_ERR is set, no memory and no object changes. -/
theorem halErr_finish_effect {s : State} {b n : Nat} (awake : s.pins.porLow = false) (noneWaits : s.hal.lateReset = []) (inWord : b < 32)
    (inSpace : n < 65536) (loc : Nat) (p : Option Nat) (q : List Instr) :
    s.sameMem ((s.halErr b loc p).finish q) ∧ ((s.halErr b loc p).finish q).bitAt Reg.halErr b = true ∧
      ((s.halErr b loc p).finish q).syncVal n = s.syncVal n := by
  obtain ⟨r, event⟩ := halErr_eq s b loc p
  refine ⟨?memory, ?sticky, (((KeepsSync.refl s).halErr b loc p).finish noneWaits q).syncVal inSpace⟩
  case memory =>
    rw [event]
    exact sameMem_finish (raise_mem _ _) (raise_ecc _ _)
  case sticky =>
    rw [event, finish_bitAt _ _ _ (a := Reg.halErr) (by decide)]
    exact raise_bit _ _ awake inWord

theorem hostReset_outside {s : State} {f n : Nat} (named : n ≠ noSync) (outside : s.inSyncRange f n = false) :
    s.hostReset f n = s.halErr 2 n (some f) := by
  rw [State.hostReset, if_neg named, if_pos (by simp [outside])]

theorem hostReset_waited {s : State} {f n : Nat} (named : n ≠ noSync) (inside : ¬ s.inSyncRange f n = false) (waited : s.waitNames n = true) :
    s.hostReset f n = s.halErr 0 n (some f) := by
  rw [State.hostReset, if_neg named, if_neg (by simpa using inside), if_pos waited]

theorem hostReset_free {s : State} {f n : Nat} (named : n ≠ noSync) (inside : ¬ s.inSyncRange f n = false) (free : ¬ s.waitNames n = true) :
    s.hostReset f n = (s.wr64 (Reg.halSyncValue n) 0).bump64 Reg.halOps 1 := by
  rw [State.hostReset, if_neg named, if_neg (by simpa using inside), if_neg free]

theorem exec_reset {s : State} (f : Fin 16) (n : BitVec 16) (live : s.fnLive f = true) (started : s.sec.started = true) :
    exec (.reset f n) s = .next ((s.hostReset f n.toNat).finish s.pending) := by
  rw [← whenUp_up (fun x => x.hostReset f n.toNat) live started]
  rfl

/-- Settles O22: the range is looked at first, then the waits; a refusal is an error event alone. -/
theorem resetOfAWaitedObjectIsRefused : Obligations.ResetOfAWaitedObjectIsRefused := by
  unfold Obligations.ResetOfAWaitedObjectIsRefused
  intro s f n live started noneWaits named
  have awake := TimingAndPower.fnLive_porHigh live
  refine ⟨_, exec_reset f n live started, ?_⟩
  split
  case isTrue outside =>
    rw [hostReset_outside named outside]
    exact halErr_finish_effect awake noneWaits (by decide) n.isLt _ _ _
  case isFalse inside =>
    split
    case isTrue waited =>
      rw [hostReset_waited named inside waited]
      exact halErr_finish_effect awake noneWaits (by decide) n.isLt _ _ _
    case isFalse free =>
      rw [hostReset_free named inside free]
      have kept := (KeepsSync.refl (s.wr64 (Reg.halSyncValue n.toNat) 0)).bumpHalOps.finish noneWaits s.pending
      exact ⟨sameMem_finish (by simp) (by simp), by rw [kept.syncVal n.isLt, syncVal_wr64_same s named (by decide)]⟩

end Sys2Proof.SyncObjects

/-!
# Memory: writes, copy channels and idle ranks (R277, R280, R281, R284, R287, R297)

A request alone in its queue is served exactly where its buckets admit it; a served write that nothing on its way refuses stores its bytes. Then the resume bits of the copy channels, the self-refresh of an idle rank, and the three statements.
-/
namespace Sys2Proof.MemoryRequests
open Sys2Proof Sys2Proof.Machine Sys2Proof.Laws

/-! ### A request alone in the queue (R284, R297) -/

/-- The queue of requests holds `q` alone. -/
def aloneWaiting (s : State) (q : MemReq) : State := { s with dram := { s.dram with waiting := [q] } }

/-- Reserved tokens in every bucket admit a request. -/
theorem admissible_of_isReserved {s : State} {q : MemReq} (reserved : s.isReserved q = true) : s.admissible q = true := by
  simp only [State.isReserved, State.admissible, List.all_eq_true, Bool.or_eq_true] at *
  exact fun k bucket => .inl (reserved k bucket)

/-- A round over the partitions comes to each of them, wherever it starts. -/
theorem mem_round {start p : Nat} (partition : p < 16) : p ∈ (List.range 16).map (fun i => (start + i) % 16) := by
  rw [List.mem_map]
  exact ⟨(p + 16 - start % 16) % 16, List.mem_range.mpr (Nat.mod_lt _ (by decide)), by omega⟩

/-- A search that can find one value only, and finds it somewhere in the list. -/
theorem findSome?_eq_of_only {α β : Type} {l : List α} {f : α → Option β} {x : α} {b : β} (mem : x ∈ l) (found : f x = some b)
    (only : ∀ y c, f y = some c → c = b) : l.findSome? f = some b := by
  have finds : (l.findSome? f).isSome := List.findSome?_isSome_iff.mpr ⟨x, mem, by rw [found]; rfl⟩
  obtain ⟨c, answer⟩ := Option.isSome_iff_exists.mp finds
  obtain ⟨y, _, atY⟩ := List.exists_of_findSome?_eq_some answer
  rw [answer, only y c atY]

theorem waitHeads_aloneWaiting (s : State) (q : MemReq) : (aloneWaiting s q).waitHeads = [q] := rfl

theorem nextAdmitted_refused {s : State} {q : MemReq} (refused : s.admissible q = false) : (aloneWaiting s q).nextAdmitted = none := by
  have notNow : (aloneWaiting s q).admissible q = false := refused
  have notReserved : (aloneWaiting s q).isReserved q = false :=
    Bool.eq_false_iff.mpr fun reserved => by simp [admissible_of_isReserved reserved] at notNow
  simp [State.nextAdmitted, waitHeads_aloneWaiting, notReserved, notNow]

/-- As reserved traffic, or when the round comes to its partition. -/
theorem nextAdmitted_admitted {s : State} {q : MemReq} (admitted : s.admissible q = true) : (aloneWaiting s q).nextAdmitted = some q := by
  have now : (aloneWaiting s q).admissible q = true := admitted
  rw [State.nextAdmitted, waitHeads_aloneWaiting]
  cases reserved : (aloneWaiting s q).isReserved q with
  | true => simp [reserved]
  | false =>
    simp only [List.find?_cons, List.find?_nil, reserved, now, Bool.and_true]
    refine findSome?_eq_of_only (mem_round q.part.isLt) (by simp) fun p c found => ?_
    split at found
    · exact (Option.some.inj found).symm
    · cases found

theorem memoryAccess_alone {s : State} {q : MemReq} (noneWaiting : s.dram.waiting = []) :
    s.memoryAccess [] q = (aloneWaiting s q).admitWaiting 1 := by
  simp [State.memoryAccess, State.upset, noneWaiting, aloneWaiting]

theorem memoryAccess_refused {s : State} {q : MemReq} (noneWaiting : s.dram.waiting = []) (refused : s.admissible q = false) :
    s.memoryAccess [] q = aloneWaiting s q := by
  rw [memoryAccess_alone noneWaiting, State.admitWaiting, nextAdmitted_refused refused]

/-- The state in which an admitted request is performed: its buckets charged, the queue empty again, the round moved on. -/
def charged (s : State) (buckets : Tab Bucket) (round : Nat) : State :=
  { s with dram := { s.dram with buckets := buckets, waiting := [], spareRr := round } }

theorem memoryAccess_admitted {s : State} {q : MemReq} (noneWaiting : s.dram.waiting = []) (admitted : s.admissible q = true) :
    ∃ buckets round, s.memoryAccess [] q = (charged s buckets round).access q := by
  have leaves : ((aloneWaiting s q).charge q).dram.waiting.erase q = [] := List.erase_cons_head q []
  rw [memoryAccess_alone noneWaiting, State.admitWaiting, nextAdmitted_admitted admitted]
  simp only [State.admitWaiting, leaves]
  exact ⟨((aloneWaiting s q).charge q).dram.buckets, _, rfl⟩

/-! ### A request that nothing on its way refuses (R35, R269, R285, R296) -/

/-- Mapped memory that grants stand for, within the grant, the bank on for a DMA request, the channel not failed. -/
structure LetThrough (s : State) (q : MemReq) : Prop where
  first : s.mapped q.addr = true
  last : s.mapped (q.addr + (q.len - 1)) = true
  kind : memKind q.addr = some 0 ∨ memKind q.addr = some 1 ∨ memKind q.addr = some 2
  grant : s.granted2 q.part.toNat q.addr q.len = true
  grantLast : s.granted2 q.part.toNat (q.addr + (q.len - 1)) 1 = true
  bank : q.dma = true → s.bankOn q.addr = true ∧ s.pdState (bankDomain q.addr) ≠ 0
  channel : memKind q.addr = some 0 → s.chState (s.chanOf q.addr) ≠ 3

/-- Neither the buckets nor the queue decide over what a request meets. -/
theorem LetThrough.charged {s : State} {q : MemReq} (h : LetThrough s q) (buckets : Tab Bucket) (round : Nat) :
    LetThrough (charged s buckets round) q :=
  ⟨h.first, h.last, h.kind, h.grant, h.grantLast, h.bank, h.channel⟩

theorem access_letThrough {s : State} {q : MemReq} (h : LetThrough s q) : s.access q = s.doAccess q := by
  obtain ⟨first, last, kind, grant, grantLast, bank, channel⟩ := h
  have outer : ¬ (memKind q.addr = some 3 ∨ memKind q.addr = some 4 ∨ memKind q.addr = some 5) := by
    rcases kind with k | k | k <;> simp [k]
  unfold State.access
  dsimp only
  rw [if_neg ?mapped, if_neg ?off, if_neg ?waking, if_neg ?fence, if_neg ?failed]
  case mapped => simp [first, last, outer]
  case off =>
    simp only [Bool.and_eq_true, decide_eq_true_eq]
    exact fun ⟨⟨dma, _⟩, off⟩ => (bank dma).2 off
  case waking =>
    simp only [Bool.and_eq_true, Bool.not_eq_true']
    exact fun ⟨dma, off⟩ => by simp [(bank dma).1] at off
  case fence => simp [grant, grantLast]
  case failed => simpa using channel

/-! ### The write itself (R280) -/

theorem calibrate_eq (s : State) (ch rank : Nat) : ∃ d, s.calibrate ch rank = { s with dram := d } := by
  unfold State.calibrate
  split
  · exact ⟨_, rfl⟩
  · exact ⟨s.dram, rfl⟩

theorem touchRank_eq (s : State) (a : Nat) : ∃ r d, s.touchRank a = { s with regs := r, dram := d } := by
  unfold State.touchRank
  extract_lets ch rank dram noted
  clear_value ch rank
  split
  · exact ⟨s.regs, s.dram, rfl⟩
  · split
    · obtain ⟨d, only⟩ := calibrate_eq (noted.setRank ch rank 0) ch rank
      exact ⟨(noted.setRank ch rank 0).regs, d, only⟩
    · exact ⟨s.regs, noted.dram, rfl⟩

theorem wrBytes_eq (s : State) (a n v : Nat) : ∃ m, s.wrBytes a n v = { s with mem := m } := by
  induction n generalizing s a v with
  | zero => exact ⟨s.mem, rfl⟩
  | succ n ih =>
    obtain ⟨m, only⟩ := ih (s.wrByte a (BitVec.ofNat 8 v)) (a + 1) (v >>> 8)
    exact ⟨m, only⟩

theorem wrMemBy_noErrors {s : State} (clean : s.ecc = []) (req : Nat) (part : Option Nat) (a n v : Nat) :
    s.wrMemBy req part a n v = s.wrBytes a n v := by
  obtain ⟨m, only⟩ := wrBytes_eq s a n v
  have none : ∀ b k, (s.wrBytes a n v).badWords b k = [] := fun b k => by simp [State.badWords, only, clean]
  rw [State.wrMemBy, none, List.foldl_nil]

/-- A write to memory without words in error stores its bytes in a state that differs from the one before in registers and in what the DRAM controller holds alone. -/
theorem doAccess_write {s : State} {q : MemReq} (isWrite : q.write = true) (clean : s.ecc = []) :
    ∃ r d, s.doAccess q = ({ s with regs := r, dram := d } : State).wrBytes q.addr q.len q.data := by
  obtain ⟨r, d, touched⟩ := touchRank_eq s q.addr
  refine ⟨r, d, ?_⟩
  rw [State.doAccess, if_pos isWrite, touched]
  exact wrMemBy_noErrors (s := { s with regs := r, dram := d }) clean _ _ _ _ _

/-- An admitted write that nothing refuses comes down to its bytes. -/
theorem memoryAccess_write {s : State} {q : MemReq} (isWrite : q.write = true) (through : LetThrough s q) (clean : s.ecc = [])
    (noneWaiting : s.dram.waiting = []) (admitted : s.admissible q = true) :
    ∃ r d, s.memoryAccess [] q = ({ s with regs := r, dram := d } : State).wrBytes q.addr q.len q.data := by
  obtain ⟨buckets, round, performed⟩ := memoryAccess_admitted noneWaiting admitted
  rw [performed, access_letThrough (through.charged buckets round)]
  exact doAccess_write isWrite clean

theorem exec_memoryAccess {s : State} (flips : List (Nat × BitVec 72)) (q : MemReq) (live : s.live = true) :
    exec (.memoryAccess flips q) s = .next ((s.memoryAccess flips q).finish s.pending) := by
  rw [← whenLive_live (fun x => x.memoryAccess flips q) live]
  rfl

/-- Settles O25: an admitted write comes down to its bytes, a refused one to a queue that holds it. -/
theorem writeStoresItsBytesAndNoOther : Obligations.WriteStoresItsBytesAndNoOther := by
  unfold Obligations.WriteStoresItsBytesAndNoOther
  intro s q live isWrite _ first last kind grant grantLast bank channel clean noneWaiting
  refine ⟨fun admitted => ⟨_, exec_memoryAccess [] q live, ?admitted⟩, fun refused => ⟨_, exec_memoryAccess [] q live, ?refused⟩⟩
  case admitted =>
    obtain ⟨r, d, stored⟩ := memoryAccess_write isWrite ⟨first, last, kind, grant, grantLast, bank, channel⟩ clean noneWaiting admitted
    obtain ⟨m, only⟩ := wrBytes_eq { s with regs := r, dram := d } q.addr q.len q.data
    refine ⟨fun k inside => ?written, fun b outside => ?others, by rw [finish_ecc, stored, only, clean],
      sameOutside_finish (by rw [stored, only]) (by rw [stored, only])⟩
    case written => rw [finish_rdByte, stored, rdByte_wrBytes_same _ _ _ _ _ inside]
    case others =>
      rw [finish_rdByte, stored, rdByte_wrBytes_other _ _ _ _ _ outside]
      rfl
  case refused =>
    rw [memoryAccess_refused noneWaiting refused]
    exact ⟨by rw [finish_dram]; rfl, sameMem_finish rfl rfl, sameOutside_finish rfl rfl, sameRegs_finish fun _ _ _ => rfl⟩

/-! ### Copy channels resumed (R281) -/

/-- The channels that a write of `v` resumes: any for the PF, a VF's own by bit 0. -/
def resumeMask (f v : Nat) : Nat := if f = 0 then v % 65536 else (v % 2) <<< f

theorem dmaResume_eq (s : State) (f v : Nat) :
    s.dmaResume f v = s.wr Reg.memDmaHalt (s.rd Reg.memDmaHalt &&& (2 ^ 32 - (resumeMask f v + 1))) := by
  rw [Nat.add_comm, ← Nat.sub_sub]
  rfl

theorem testBit_resumeMask (f v k : Nat) :
    (resumeMask f v).testBit k = if f = 0 then decide (k < 16) && v.testBit k else decide (k = f) && v.testBit 0 := by
  unfold resumeMask
  split
  case isTrue => exact Nat.testBit_mod_two_pow v 16 k
  case isFalse =>
    rw [Nat.testBit_shiftLeft, show v % 2 = v % 2 ^ 1 from rfl, Nat.testBit_mod_two_pow]
    rcases Nat.lt_trichotomy k f with below | rfl | above
    · simp [Nat.not_le.mpr below, below.ne]
    · simp
    · simp [above.ne', Nat.sub_ne_zero_of_lt above]

theorem resumeMask_lt {f : Nat} (function : f < 16) (v : Nat) : resumeMask f v < 2 ^ 32 := by
  refine Nat.lt_pow_two_of_testBit _ fun i high => ?_
  rw [testBit_resumeMask]
  split
  · simp; omega
  · simp; omega

/-- A channel stays halted where it was and its bit is not among those resumed. -/
theorem dmaResume_halted (s : State) {f k : Nat} (function : f < 16) (inWord : k < 32) (v : Nat) :
    (s.dmaResume f v).bitAt Reg.memDmaHalt k = (s.bitAt Reg.memDmaHalt k && !(resumeMask f v).testBit k) := by
  have fits : s.rd Reg.memDmaHalt &&& (2 ^ 32 - (resumeMask f v + 1)) < 2 ^ 32 := Nat.lt_of_le_of_lt Nat.and_le_left (rd_lt s _)
  rw [dmaResume_eq, State.bitAt, rd_wr_same, Nat.mod_eq_of_lt fits, bit, Nat.testBit_and,
    Nat.testBit_two_pow_sub_succ (resumeMask_lt function v), State.bitAt, bit]
  simp [inWord]

theorem exec_memDmaResumeWrite {s : State} (f : Fin 16) (v : Word) (live : s.fnLive f = true) (started : s.sec.started = true) :
    exec (.memDmaResumeWrite f v) s = .next ((s.dmaResume f v.toNat).finish s.pending) := by
  rw [← whenUp_up (fun x => x.dmaResume f v.toNat) live started]
  rfl

/-- Settles O26: the write clears the bits of its mask in MEM_DMA_HALT. -/
theorem dmaResumeClearsTheBitsItMay : Obligations.DmaResumeClearsTheBitsItMay := by
  unfold Obligations.DmaResumeClearsTheBitsItMay
  intro s f v k live started
  refine ⟨_, exec_memDmaResumeWrite f v live started, sameMem_finish rfl rfl, sameOutside_finish rfl rfl, sameRegs_finish ?frame, ?halted⟩
  case frame =>
    intro a sel _
    exact rd_wr_other s _ (of_decide_eq_false sel)
  case halted =>
    rw [finish_bitAt _ _ _ (by decide), dmaResume_halted s f.isLt k.isLt, testBit_resumeMask]
    simp only [Fin.val_eq_zero_iff, BitVec.testBit_toNat]

/-! ### Self-refresh of an idle rank (R287) -/

theorem endReg_ddrChStatus : ∀ ch : Fin 4, endReg (Reg.ddrChStatus ch) = false := by decide

theorem endReg_ddrSrEntries : ∀ ch : Fin 4, endReg (Reg.ddrSrEntries ch) = false := by decide

theorem ddrChStatus_ne_ddrSrEntries (ch : Nat) : Reg.ddrChStatus ch ≠ Reg.ddrSrEntries ch := by
  simp only [Reg.ddrChStatus, Reg.ddrSrEntries]
  omega

/-- A rank put in self-refresh, and counted. -/
def refreshed (s : State) (ch rank : Nat) : State := (s.setRank ch rank 1).bump (Reg.ddrSrEntries ch) 1

theorem refreshed_rankState (s : State) (ch : Nat) {rank : Nat} (ofTwo : rank < 2) : (refreshed s ch rank).rankState ch rank = 1 := by
  have counted : (refreshed s ch rank).rankState ch rank = (s.setRank ch rank 1).rankState ch rank := by
    rw [refreshed, State.rankState, State.fld, rd_bump_other _ _ (ddrChStatus_ne_ddrSrEntries ch), State.rankState, State.fld]
  rw [counted]
  exact fld_setFld_same _ _ _ _ _ (by omega)

theorem refreshed_entries (s : State) (ch rank : Nat) :
    (refreshed s ch rank).rd (Reg.ddrSrEntries ch) = min (s.rd (Reg.ddrSrEntries ch) + 1) 0xFFFFFFFF := by
  rw [refreshed, rd_bump_same, State.setRank, rd_setFld_other _ _ _ _ (ddrChStatus_ne_ddrSrEntries ch).symm]
  rfl

theorem refreshed_rd_other (s : State) {ch a : Nat} (rank : Nat) (status : a ≠ Reg.ddrChStatus ch) (entries : a ≠ Reg.ddrSrEntries ch) :
    (refreshed s ch rank).rd a = s.rd a := by
  rw [refreshed, rd_bump_other _ _ entries, State.setRank, rd_setFld_other _ _ _ _ status]

/-- The time, in ns, from which a rank without a later request is idle long enough. -/
def selfRefreshDue (s : State) (ch rank : Nat) : Nat :=
  Tab.read (fun _ => 0) s.dram.lastReq (2 * ch + rank) + 1000 * clampNat 1 1000000 (s.fld Reg.ddrCtrl 0 20)

theorem selfRefresh_idle {s : State} {ch rank : Nat} (ready : s.chState ch = 2) (active : s.rankState ch rank = 0)
    (idle : selfRefreshDue s ch rank ≤ s.now) : s.selfRefresh ch rank = refreshed s ch rank := if_pos ⟨ready, active, idle⟩

theorem selfRefresh_requested {s : State} {ch rank : Nat} (requested : ¬ selfRefreshDue s ch rank ≤ s.now) : s.selfRefresh ch rank = s :=
  if_neg fun ⟨_, _, idle⟩ => requested idle

theorem exec_selfRefreshEntry {s : State} (ch : Fin 4) (rank : Fin 2) (live : s.live = true) :
    exec (.selfRefreshEntry ch rank) s = .next ((s.selfRefresh ch rank).finish s.pending) := by
  rw [← whenLive_live (fun x => x.selfRefresh ch rank) live]
  rfl

/-- Settles O27: an idle rank is put in self-refresh and counted; a rank with a later request is left to the end of the command. -/
theorem idleRankEntersSelfRefresh : Obligations.IdleRankEntersSelfRefresh := by
  unfold Obligations.IdleRankEntersSelfRefresh
  intro s ch rank live ready active
  refine ⟨_, exec_selfRefreshEntry ch rank live, ?_⟩
  rw [finish_rd _ _ (endReg_ddrSrEntries ch), State.rankState, finish_fld _ _ _ _ (endReg_ddrChStatus ch)]
  split
  case isTrue idle =>
    rw [selfRefresh_idle ready active idle]
    refine ⟨sameMem_finish rfl rfl, sameOutside_finish rfl rfl, sameRegs_finish fun a sel _ => ?_,
      refreshed_rankState s ch rank.isLt, refreshed_entries s ch rank⟩
    obtain ⟨status, entries⟩ : a ≠ Reg.ddrChStatus ch ∧ a ≠ Reg.ddrSrEntries ch := by simpa using sel
    exact refreshed_rd_other s rank status entries
  case isFalse requested =>
    rw [selfRefresh_requested requested]
    exact ⟨sameMem_finish rfl rfl, sameOutside_finish rfl rfl, sameRegs_finish fun _ _ _ => rfl, active⟩

end Sys2Proof.MemoryRequests

/-!
# The safety island: control-pair faults and the FAULT_N test (R310, R318, Tables 13.6, 13.12)

A control pair's fault is an error event of the island and a report; the FAULT_N test is a register, a status bit and the pin. Then the two statements.
-/
namespace Sys2Proof.SafetyIsland
open Sys2Proof Sys2Proof.Machine Sys2Proof.Laws

/-! ### Faults of the control pairs (R310) -/

/-- Event `b` of SAF_ERR about control pair `k`, and its report to the island: what a mismatch and a missing heartbeat share. -/
def controlPairFault (s : State) (b k : Nat) : State :=
  (s.safErr b (4 + k) 0x04 none).fault { cause := 0x04, subsys := controlSubsys k, unit := k }

theorem controlMismatch_eq_controlPairFault (s : State) (k : Nat) : s.controlMismatch k = controlPairFault s 4 k := rfl

theorem heartbeatMissing_eq_controlPairFault (s : State) (k : Nat) : s.heartbeatMissing k = controlPairFault s 5 k := rfl

@[simp] theorem controlPairFault_mem (s : State) (b k : Nat) : (controlPairFault s b k).mem = s.mem := raise_mem s _
@[simp] theorem controlPairFault_ecc (s : State) (b k : Nat) : (controlPairFault s b k).ecc = s.ecc := raise_ecc s _

theorem controlPairFault_rd (s : State) (b k : Nat) {a : Nat} (err : a ≠ Reg.safErr) (pba : a ≠ msixPba 0 1) :
    (controlPairFault s b k).rd a = s.rd a := raise_rd s _ err pba

theorem controlPairFault_bit {s : State} {b : Nat} (awake : s.pins.porLow = false) (inWord : b < 32) (k : Nat) :
    (controlPairFault s b k).bitAt Reg.safErr b = true := raise_bit s _ awake inWord

/-- The event leaves the reports and the time alone, so the report comes last, dated now. -/
theorem controlPairFault_reports (s : State) (b k : Nat) : (controlPairFault s b k).saf.reports =
    s.saf.reports ++ [{ cause := 0x04, subsys := controlSubsys k, unit := k, tb := s.now }] := by
  simp only [controlPairFault, State.safErr, State.fault, State.now, raise_saf, raise_tb]

theorem controlPairFault_finish_effect {s : State} {b : Nat} (awake : s.pins.porLow = false) (inWord : b < 32) (k : Nat) (q : List Instr) :
    ((controlPairFault s b k).finish q).bitAt Reg.safErr b = true ∧ s.sameMem ((controlPairFault s b k).finish q) ∧
      ((controlPairFault s b k).finish q).saf.reports =
        s.saf.reports ++ [{ cause := 0x04, subsys := controlSubsys k, unit := k, tb := s.now }] ∧
      s.sameRegs ((controlPairFault s b k).finish q) (fun a => decide (a = Reg.safErr) || decide (a = msixPba 0 1)) := by
  refine ⟨?sticky, sameMem_finish (controlPairFault_mem _ _ _) (controlPairFault_ecc _ _ _), ?reports, sameRegs_finish fun a sel _ => ?frame⟩
  case sticky => rw [finish_bitAt _ _ _ (by decide), controlPairFault_bit awake inWord]
  case reports => rw [finish_saf, controlPairFault_reports]
  case frame =>
    obtain ⟨err, pba⟩ : a ≠ Reg.safErr ∧ a ≠ msixPba 0 1 := by simpa using sel
    exact controlPairFault_rd s b k err pba

/-- Out of reset, POR_N is released (R371). -/
theorem live_porHigh {s : State} (live : s.live = true) : s.pins.porLow = false := by
  simp only [State.live, Bool.and_eq_true, Bool.not_eq_true'] at live
  obtain ⟨⟨⟨_, porHigh⟩, _⟩, _⟩ := live
  exact porHigh

theorem exec_controlPairMismatch {s : State} (pair : Fin 4) (live : s.live = true) :
    exec (.controlPairMismatch pair) s = .next ((controlPairFault s 4 pair).finish s.pending) := by
  rw [← controlMismatch_eq_controlPairFault, ← whenLive_live (fun x => x.controlMismatch pair) live]
  rfl

theorem exec_heartbeatMissing {s : State} (pair : Fin 3) (live : s.live = true) :
    exec (.heartbeatMissing pair) s = .next ((controlPairFault s 5 pair).finish s.pending) := by
  rw [← heartbeatMissing_eq_controlPairFault, ← whenLive_live (fun x => x.heartbeatMissing pair) live]
  rfl

/-- Settles O28: both commands are a control pair's fault, and differ in its bit of SAF_ERR alone (units of the pairs: log entry 58). -/
theorem controlPairFaultsAreReported : Obligations.ControlPairFaultsAreReported := by
  unfold Obligations.ControlPairFaultsAreReported
  intro s live
  have awake := live_porHigh live
  exact ⟨fun pair => ⟨_, exec_controlPairMismatch pair live, controlPairFault_finish_effect awake (by decide) pair _⟩,
    fun pair => ⟨_, exec_heartbeatMissing pair live, controlPairFault_finish_effect awake (by decide) pair _⟩⟩

/-! ### SAF_STATUS at the end of a command and as FAULT_N is asserted (Table 13.12) -/

theorem settleResets_rd (s : State) {a : Nat} (apart : ¬ (Reg.halSyncValue 0 ≤ a ∧ a < Reg.halSyncValue 65536)) :
    s.settleResets.rd a = s.rd a := by
  obtain ⟨r, h, only, frame⟩ := settleResets_eq s
  simp only [only, State.rd, frame a apart]

/-- A field of one bit replaced leaves the other bits of its word. -/
theorem bitAt_setFld_apart (s : State) {a lo i : Nat} (x : Nat) (inWord : lo < 32) (apart : i ≠ lo) :
    (s.setFld a lo 1 x).bitAt a i = s.bitAt a i := by
  rw [bitAt_setFld_same _ _ _ _ _ _ (by omega), if_neg (by omega)]

theorem bitAt_setFld_other (s : State) {a b : Nat} (lo len x i : Nat) (other : b ≠ a) : (s.setFld a lo len x).bitAt b i = s.bitAt b i := by
  rw [State.bitAt, rd_setFld_other _ _ _ _ other, State.bitAt]

/-- The copies write bit 1 of SAF_STATUS only. -/
theorem mirror_safStatus_bit (s : State) {i : Nat} (notFault : i ≠ 1) : s.mirror.bitAt Reg.safStatus i = s.bitAt Reg.safStatus i := by
  obtain ⟨n, copies⟩ := mirror_wr s
  rw [copies, State.bitAt, rd_wr_other _ _ (by decide), ← State.bitAt, bitAt_setFld_other _ _ _ _ _ (by decide),
    bitAt_setFld_other _ _ _ _ _ (by decide), bitAt_setFld_apart _ _ (by decide) notFault]

/-- The end of a command writes bit 1 of SAF_STATUS only. -/
theorem finish_safStatus_bit (s : State) (q : List Instr) {i : Nat} (notFault : i ≠ 1) :
    (s.finish q).bitAt Reg.safStatus i = s.bitAt Reg.safStatus i := by
  have ended : (s.finish q).bitAt Reg.safStatus i = s.settleResets.mirror.bitAt Reg.safStatus i := by
    simp only [State.finish, State.noteMet, State.bitAt, State.rd]
  rw [ended, mirror_safStatus_bit _ notFault, State.bitAt, settleResets_rd _ (by decide), State.bitAt]

/-- FAULT_N asserted writes bit 1 of SAF_STATUS only. -/
theorem assertFaultN_safStatus_bit (s : State) {i : Nat} (notFault : i ≠ 1) : s.assertFaultN.bitAt Reg.safStatus i = s.bitAt Reg.safStatus i := by
  unfold State.assertFaultN
  dsimp only
  rw [bitAt_setFld_other _ _ _ _ _ (by decide), bitAt_setFld_apart _ _ (by decide) notFault]
  split
  case isTrue => rfl
  case isFalse => exact congrArg (bit · i) (rd_wr64_other s _ (by decide) (by decide))

/-! ### The FAULT_N test (R318, Table 13.12) -/

/-- SAF_CTRL.fault_n_test set and shown in SAF_STATUS, before the pin follows. -/
def testArmed (s : State) : State := (s.wr Reg.safCtrl 1).setFld Reg.safStatus 7 1 1

theorem testArmed_rd_other (s : State) {a : Nat} (ctrl : a ≠ Reg.safCtrl) (status : a ≠ Reg.safStatus) : (testArmed s).rd a = s.rd a := by
  rw [testArmed, rd_setFld_other _ _ _ _ status, rd_wr_other _ _ ctrl]

theorem testArmed_ctrl (s : State) : (testArmed s).rd Reg.safCtrl = 1 := by
  rw [testArmed, rd_setFld_other _ _ _ _ (by decide)]
  exact rd_wr_same s _ 1

theorem testArmed_status (s : State) : (testArmed s).bitAt Reg.safStatus 7 = true := by
  rw [testArmed, bitAt_setFld_same _ _ _ _ _ _ (by decide)]
  rfl

theorem faultNTest_classSActive {s : State} (active : s.sActive = true) (v : Nat) : s.faultNTest v = s := if_pos active

theorem faultNTest_set {s : State} (inactive : s.sActive = false) {v : Nat} (bitSet : bits v 0 1 = 1) :
    s.faultNTest v = (testArmed s).assertFaultN := by
  rw [State.faultNTest, if_neg (by simp [inactive]), bitSet]
  rfl

theorem bits_of_getLsbD_zero {v : Word} (bitSet : v.getLsbD 0 = true) : bits v.toNat 0 1 = 1 := by
  simpa [BitVec.getLsbD, bits] using bitSet

theorem exec_faultNTestWrite {s : State} (v : Word) (live : s.fnLive 0 = true) :
    exec (.faultNTestWrite v) s = .next ((s.faultNTest v.toNat).finish s.pending) := by
  rw [← whenFn_live (fun x => x.faultNTest v.toNat) live]
  rfl

/-- Settles O29: a refused write leaves the state to the end of the command; an accepted one arms the test and asserts the pin. -/
theorem faultNTestAssertsFaultN : Obligations.FaultNTestAssertsFaultN := by
  unfold Obligations.FaultNTestAssertsFaultN
  intro s v live
  refine ⟨fun active => by rw [exec_faultNTestWrite v live, faultNTest_classSActive active], fun inactive bitSet => ⟨_, exec_faultNTestWrite v live, ?_⟩⟩
  rw [faultNTest_set inactive (bits_of_getLsbD_zero bitSet)]
  obtain ⟨r, asserted, frame⟩ := TimingAndPower.assertFaultN_eq (testArmed s)
  refine ⟨by rw [finish_pins, asserted], ?ctrl, ?status, sameMem_finish (by rw [asserted]; rfl) (by rw [asserted]; rfl),
    sameOutside_finish (by rw [asserted]; rfl) (by rw [asserted]; rfl), sameRegs_finish fun a sel notEnd => ?frame⟩
  case ctrl => rw [finish_rd _ _ (by decide), frame _ (by decide) (by decide) (by decide) (by decide), testArmed_ctrl]
  case status => rw [finish_safStatus_bit _ _ (by decide), assertFaultN_safStatus_bit _ (by decide), testArmed_status]
  case frame =>
    obtain ⟨ctrl, time, time'⟩ : a ≠ Reg.safCtrl ∧ a ≠ Reg.safFaultNTb ∧ a ≠ Reg.safFaultNTb + 4 := by simpa using sel
    simp only [endReg, Bool.or_eq_false_iff, decide_eq_false_iff_not] at notEnd
    obtain ⟨⟨⟨status, mgmt⟩, _⟩, _⟩ := notEnd
    rw [frame a time time' status mgmt, testArmed_rd_other s ctrl status]

end Sys2Proof.SafetyIsland

/-!
# The host endpoint: unsupported requests, MSI-X, mailboxes and the management bus (R339, R340, R345, R351)

What each operation of the endpoint comes to under the hypotheses of its statement, what it leaves of the registers beside its own, then the statements.
-/
namespace Sys2Proof.HostEndpoint
open Sys2Proof Sys2Proof.Machine Sys2Proof.Laws

/-! ### Unsupported Requests (R340, Table 14.5) -/

/-- A request counted and, while MGMT_ERR.ur reads 0, logged: the part before its error event. -/
def urNoted (s : State) (f kind bar addr : Nat) : State :=
  if s.bitAt Reg.mgmtErr 0 then s.bump Reg.mgmtUrCnt 1
  else ((s.bump Reg.mgmtUrCnt 1).wr Reg.mgmtUrLog (f % 16 + (kind % 16) <<< 4 + (bar % 4) <<< 8)).wr64 Reg.mgmtUrAddr addr

theorem urNoted_logged {s : State} (set : s.bitAt Reg.mgmtErr 0 = true) (f kind bar addr : Nat) :
    urNoted s f kind bar addr = s.bump Reg.mgmtUrCnt 1 := if_pos set

theorem urNoted_first {s : State} (clear : ¬ s.bitAt Reg.mgmtErr 0 = true) (f kind bar addr : Nat) : urNoted s f kind bar addr =
    ((s.bump Reg.mgmtUrCnt 1).wr Reg.mgmtUrLog (f % 16 + (kind % 16) <<< 4 + (bar % 4) <<< 8)).wr64 Reg.mgmtUrAddr addr := if_neg clear

@[simp] theorem urNoted_mem (s : State) (f kind bar addr : Nat) : (urNoted s f kind bar addr).mem = s.mem := by unfold urNoted; split <;> simp
@[simp] theorem urNoted_ecc (s : State) (f kind bar addr : Nat) : (urNoted s f kind bar addr).ecc = s.ecc := by unfold urNoted; split <;> simp
@[simp] theorem urNoted_pins (s : State) (f kind bar addr : Nat) : (urNoted s f kind bar addr).pins = s.pins := by unfold urNoted; split <;> simp

theorem urNoted_rd_other (s : State) (f kind bar addr : Nat) {a : Nat} (cnt : a ≠ Reg.mgmtUrCnt) (log : a ≠ Reg.mgmtUrLog)
    (low : a ≠ Reg.mgmtUrAddr) (high : a ≠ Reg.mgmtUrAddr + 4) : (urNoted s f kind bar addr).rd a = s.rd a := by
  unfold urNoted
  split
  · exact rd_bump_other s _ cnt
  · rw [rd_wr64_other _ _ low high, rd_wr_other _ _ log, rd_bump_other s _ cnt]

theorem urNoted_count (s : State) (f kind bar addr : Nat) :
    (urNoted s f kind bar addr).rd Reg.mgmtUrCnt = min (s.rd Reg.mgmtUrCnt + 1) 0xFFFFFFFF := by
  unfold urNoted
  split
  · exact rd_bump_same s _ 1
  · rw [rd_wr64_other _ _ (by decide) (by decide), rd_wr_other _ _ (by decide)]
    exact rd_bump_same s _ 1

/-- The log word of Table 14.9: function, kind, BAR. -/
theorem urLogWord (f : Fin 16) (kind : Fin 9) (bar : Fin 4) :
    (f.val % 16 + (kind.val % 16) <<< 4 + (bar.val % 4) <<< 8) % 2 ^ 32 = f.val + 16 * kind.val + 256 * bar.val := by
  simp only [Nat.shiftLeft_eq]
  omega

/-- A request noted, then its error event. -/
def urRaised (s : State) (f kind bar addr : Nat) : State :=
  (urNoted s f kind bar addr).raise { idx := 0, unit := f % 16, bit := 0, detail := kind, addr := addr }

theorem urRaised_rd (s : State) (f kind bar addr : Nat) {a : Nat} (err : a ≠ Reg.mgmtErr) (pba : a ≠ msixPba 0 1) :
    (urRaised s f kind bar addr).rd a = (urNoted s f kind bar addr).rd a := raise_rd _ _ err pba

theorem urRaised_sticky {s : State} (awake : s.pins.porLow = false) (f kind bar addr : Nat) :
    (urRaised s f kind bar addr).bitAt Reg.mgmtErr 0 = true :=
  raise_bit _ { idx := 0, unit := f % 16, bit := 0, detail := kind, addr := addr } (by rw [urNoted_pins, awake]) (by decide : 0 < 32)

@[simp] theorem urRaised_mem (s : State) (f kind bar addr : Nat) : (urRaised s f kind bar addr).mem = s.mem := by simp [urRaised]
@[simp] theorem urRaised_ecc (s : State) (f kind bar addr : Nat) : (urRaised s f kind bar addr).ecc = s.ecc := by simp [urRaised]

/-- The AER status of the function set beside the event. -/
def urFlagged (s : State) (f kind bar addr : Nat) : State :=
  let x := urRaised s f kind bar addr
  { x with hep := { x.hep with aerUr := x.hep.aerUr ||| BitVec.ofNat 16 (2 ^ (f % 16)) } }

/-- A completion, where the request has one, is the rest of what a request does. -/
theorem unsupportedRequest_eq (s : State) (f kind bar addr : Nat) (posted : Bool) :
    ∃ o, s.unsupportedRequest f kind bar addr posted = { urFlagged s f kind bar addr with out := o } := by
  have answer : s.unsupportedRequest f kind bar addr posted =
      if urCompletes kind posted then (urFlagged s f kind bar addr).emit (.urCompletion (f % 16)) else urFlagged s f kind bar addr := rfl
  rw [answer]
  split
  · exact ⟨_, rfl⟩
  · exact ⟨_, rfl⟩

theorem getLsbD_or_twoPow (x : BitVec 16) (f : Fin 16) : (x ||| BitVec.ofNat 16 (2 ^ (f.val % 16))).getLsbD f = true := by
  rw [BitVec.getLsbD_or, BitVec.getLsbD_ofNat, Nat.mod_eq_of_lt f.isLt, Nat.testBit_two_pow_self]
  simp

theorem exec_unsupportedRequest {s : State} (f : Fin 16) (kind : Fin 9) (bar : Fin 4) (addr : BitVec 64) (posted : Bool)
    (live : s.fnLive 0 = true) : exec (.unsupportedRequest f kind bar addr posted) s =
      .next ((s.unsupportedRequest f kind bar addr.toNat posted).finish s.pending) := by
  rw [← whenFn_live (fun x => x.unsupportedRequest f kind bar addr.toNat posted) live]
  rfl

/-- The log of a request: written by the first, kept by those after it (R340). -/
theorem urNoted_log (s : State) (f : Fin 16) (kind : Fin 9) (bar : Fin 4) (addr : BitVec 64) :
    if s.bitAt Reg.mgmtErr 0 = true then
      (urNoted s f kind bar addr.toNat).rd Reg.mgmtUrLog = s.rd Reg.mgmtUrLog
        ∧ (urNoted s f kind bar addr.toNat).rd64 Reg.mgmtUrAddr = s.rd64 Reg.mgmtUrAddr
    else (urNoted s f kind bar addr.toNat).rd Reg.mgmtUrLog = f.val + 16 * kind.val + 256 * bar.val
      ∧ (urNoted s f kind bar addr.toNat).rd64 Reg.mgmtUrAddr = addr.toNat := by
  split
  case isTrue set =>
    rw [urNoted_logged set]
    exact ⟨rd_bump_other s _ (by decide), by rw [State.rd64, rd_bump_other s _ (by decide), rd_bump_other s _ (by decide), State.rd64]⟩
  case isFalse clear =>
    rw [urNoted_first clear]
    exact ⟨by rw [rd_wr64_other _ _ (by decide) (by decide), rd_wr_same, urLogWord], rd64_wr64_same _ _ _ addr.isLt⟩

/-- Settles O30: the counter and the log are the note's, the sticky bit and the message the event's. -/
theorem unsupportedRequestIsCountedAndLogged : Obligations.UnsupportedRequestIsCountedAndLogged := by
  unfold Obligations.UnsupportedRequestIsCountedAndLogged
  intro s f kind bar addr posted live
  have awake := TimingAndPower.fnLive_porHigh live
  obtain ⟨o, only⟩ := unsupportedRequest_eq s f kind bar addr.toNat posted
  have ended : ∀ a, endReg a = false →
      ((s.unsupportedRequest f kind bar addr.toNat posted).finish s.pending).rd a = (urRaised s f kind bar addr.toNat).rd a := by
    intro a notEnd
    rw [finish_rd _ _ notEnd, only]
    rfl
  refine ⟨_, exec_unsupportedRequest f kind bar addr posted live, ?count, ?sticky, ?status,
    sameMem_finish (by rw [only]; exact urRaised_mem ..) (by rw [only]; exact urRaised_ecc ..), ?log, fun a sel notEnd => ?frame⟩
  case count => rw [ended _ (by decide), urRaised_rd _ _ _ _ _ (by decide) (by decide), urNoted_count]
  case sticky => rw [State.bitAt, ended _ (by decide), ← State.bitAt, urRaised_sticky awake]
  case status =>
    rw [finish_hep, only]
    exact getLsbD_or_twoPow _ f
  case log =>
    simp only [State.rd64, ended Reg.mgmtUrLog (by decide), ended Reg.mgmtUrAddr (by decide), ended (Reg.mgmtUrAddr + 4) (by decide),
      urRaised_rd s f kind bar addr.toNat (a := Reg.mgmtUrLog) (by decide) (by decide),
      urRaised_rd s f kind bar addr.toNat (a := Reg.mgmtUrAddr) (by decide) (by decide),
      urRaised_rd s f kind bar addr.toNat (a := Reg.mgmtUrAddr + 4) (by decide) (by decide)]
    exact urNoted_log s f kind bar addr
  case frame =>
    obtain ⟨cnt, err, log, low, high, pba⟩ : a ≠ Reg.mgmtUrCnt ∧ a ≠ Reg.mgmtErr ∧ a ≠ Reg.mgmtUrLog ∧ a ≠ Reg.mgmtUrAddr
      ∧ a ≠ Reg.mgmtUrAddr + 4 ∧ a ≠ msixPba 0 1 := by simpa using sel
    rw [ended a notEnd, urRaised_rd _ _ _ _ _ err pba, urNoted_rd_other _ _ _ _ _ cnt log low high]

/-! ### Unmasking a vector (R339) -/

/-- The table and the pending bits of the PF's vectors lie apart, and the end of a command writes neither. -/
theorem msixTable_apart {v : Nat} (vector : v < 2048) :
    msixCtl 0 v ≠ Reg.mgmtFuncState ∧ msixCtl 0 v ≠ msixPba 0 v ∧ endReg (msixCtl 0 v) = false ∧ endReg (msixPba 0 v) = false := by
  simp only [endReg, Bool.or_eq_false_iff, Bool.and_eq_false_iff, decide_eq_false_iff_not]
  simp only [msixCtl, msixPba, if_true, Reg.mgmtFuncState, Reg.safStatus, Reg.mgmtStatus, Reg.errSummary, Reg.halSyncValue]
  omega

/-- A vector of the PF with its mask bit cleared. -/
def unmasked (s : State) (v : Nat) : State := s.setFld (msixCtl 0 v) 0 1 0

theorem unmasked_rd_other (s : State) {v a : Nat} (ctl : a ≠ msixCtl 0 v) : (unmasked s v).rd a = s.rd a := rd_setFld_other s _ _ _ ctl

theorem unmasked_mask (s : State) (v : Nat) : (unmasked s v).bitAt (msixCtl 0 v) 0 = false := by
  rw [unmasked, bitAt_setFld_same _ _ _ _ _ _ (by decide)]
  rfl

theorem unmasked_canIssue {s : State} {v : Nat} (vector : v < 2048) (issues : s.canIssue 0 = true) : (unmasked s v).canIssue 0 = true := by
  obtain ⟨apart, _⟩ := msixTable_apart vector
  rw [← issues, State.canIssue, State.fnExists, State.bitAt, unmasked_rd_other s apart.symm]
  rfl

theorem unmasked_pending (s : State) {v : Nat} (vector : v < 2048) :
    (unmasked s v).bitAt (msixPba 0 v) (v % 32) = s.bitAt (msixPba 0 v) (v % 32) := by
  obtain ⟨_, apart, _⟩ := msixTable_apart vector
  rw [State.bitAt, unmasked_rd_other s apart.symm, State.bitAt]

/-- Unmasked, and its message sent where one is held. -/
theorem msixUnmask_eq {s : State} {v : Nat} (vector : v < 2048) (live : s.fnLive 0 = true) (issues : s.canIssue 0 = true) :
    s.msixUnmask 0 v = if s.bitAt (msixPba 0 v) (v % 32) = true then (unmasked s v).fireHeld 0 v else unmasked s v := by
  have inTable : ¬ (s.fnLive 0 = false ∨ msixCount 0 ≤ v) := by
    simp [live, msixCount, vector]
  have sent : s.msixUnmask 0 v = if ((unmasked s v).bitAt (msixPba 0 v) (v % 32) && (unmasked s v).canIssue 0) = true
      then (unmasked s v).fireHeld 0 v else unmasked s v := if_neg inTable
  rw [sent, unmasked_canIssue vector issues, unmasked_pending s vector, Bool.and_true]

theorem exec_msixUnmask (s : State) (v : Fin 2048) : exec (.msixUnmask 0 v) s = .next ((s.msixUnmask 0 v).finish s.pending) := rfl

theorem fireHeld_rd_other (s : State) {v a : Nat} (pba : a ≠ msixPba 0 v) : (s.fireHeld 0 v).rd a = s.rd a := rd_setFld_other s _ _ _ pba

theorem fireHeld_pending (s : State) (v : Nat) : (s.fireHeld 0 v).bitAt (msixPba 0 v) (v % 32) = false := by
  have cleared : (s.setFld (msixPba 0 v) (v % 32) 1 0).bitAt (msixPba 0 v) (v % 32) = false := by
    rw [bitAt_setFld_same _ _ _ _ _ _ (by omega), if_pos (by omega), Nat.zero_testBit]
  exact cleared

/-- Settles O31: a held message fires from the unmasked state and clears its pending bit; with none held the mask bit alone changes. -/
theorem unmaskedVectorFiresOnce : Obligations.UnmaskedVectorFiresOnce := by
  unfold Obligations.UnmaskedVectorFiresOnce
  intro s v live issues
  obtain ⟨_, apart, ctlKept, pbaKept⟩ := msixTable_apart v.isLt
  refine ⟨_, exec_msixUnmask s v, ?_⟩
  rw [finish_bitAt _ _ _ ctlKept, finish_bitAt _ _ _ pbaKept, finish_out, msixUnmask_eq v.isLt live issues]
  split
  case isTrue held =>
    refine ⟨?mask, fireHeld_pending _ v, sameMem_finish rfl rfl, rfl, sameRegs_finish fun a sel _ => ?frame⟩
    case mask => rw [State.bitAt, fireHeld_rd_other _ apart, ← State.bitAt, unmasked_mask]
    case frame =>
      obtain ⟨ctl, pba⟩ : a ≠ msixCtl 0 v ∧ a ≠ msixPba 0 v := by simpa using sel
      rw [fireHeld_rd_other _ pba, unmasked_rd_other s ctl]
  case isFalse idle =>
    refine ⟨unmasked_mask s v, ?pending, sameMem_finish rfl rfl, rfl, sameRegs_finish fun a sel _ => ?frame⟩
    case pending => rw [unmasked_pending s v.isLt, Bool.not_eq_true _ |>.mp idle]
    case frame =>
      obtain ⟨ctl, _⟩ : a ≠ msixCtl 0 v ∧ a ≠ msixPba 0 v := by simpa using sel
      exact unmasked_rd_other s ctl

/-! ### The registers of a mailbox (Table 14.8) -/

/-- Where a word of function `f`'s mailbox lies: apart from MGMT_ERR, from the pending bits of vector 1 of the PF and of its own vector 0, and from what the end of a command writes. -/
structure MbxWord (f a : Nat) : Prop where
  notErr : a ≠ Reg.mgmtErr
  notErrVector : a ≠ msixPba 0 1
  notEndVector : a ≠ msixPba f 0
  notEnd : endReg a = false

theorem mbxWord_of_lt (f : Nat) {o : Nat} (inBox : o < 0x100) : MbxWord f (mbxBase f + o) := by
  constructor
  case notErr =>
    simp only [mbxBase, vfBase, Reg.mgmtErr]
    split <;> omega
  case notErrVector =>
    simp only [mbxBase, vfBase, msixPba, if_true]
    split <;> omega
  case notEndVector =>
    simp only [mbxBase, vfBase, msixPba]
    split <;> omega
  case notEnd =>
    simp only [endReg, Bool.or_eq_false_iff, Bool.and_eq_false_iff, decide_eq_false_iff_not]
    simp only [mbxBase, vfBase, Reg.safStatus, Reg.mgmtStatus, Reg.errSummary, Reg.halSyncValue]
    split <;> omega

theorem mbxWord_status (f : Nat) : MbxWord f (Reg.mgmtMbxStatus f) := mbxWord_of_lt f (by decide)

theorem mbxWord_ignored (f : Nat) : MbxWord f (Reg.mgmtMbxIgnored f) := mbxWord_of_lt f (by decide)

theorem mbxWord_result (f : Nat) {k : Nat} (inResult : k < 16) : MbxWord f (Reg.mgmtMbxResult f + 4 * k) := by
  rw [Reg.mgmtMbxResult, Nat.add_assoc]
  exact mbxWord_of_lt f (by omega)

/-! ### A BUSY mailbox (R345) -/

section Busy
variable {s : State} {f : Nat} (live : s.fnLive f = true) (busy : s.mbxState f = 1)
include live busy

theorem mbxStart_busy (op tag : Nat) : s.mbxStart f op tag = (s.mbxIgnore f, false) := by
  rw [State.mbxStart, if_neg (by simp [live]), if_pos busy]

theorem mbxShort_busy (op tag : Nat) (act : State → State × Nat × Nat) : s.mbxShort f op tag act = s.mbxIgnore f := by
  rw [State.mbxShort, mbxStart_busy live busy]
  rfl

theorem mbxLong_busy (op tag : Nat) (act : State → State × Nat × Nat) : s.mbxLong f op tag act = s.mbxIgnore f := by
  rw [State.mbxLong, mbxStart_busy live busy]
  rfl

theorem mbxChecked_busy (op tag : Nat) (pre : State → Option (Nat × Nat)) (act : State → State × Nat × Nat) :
    s.mbxChecked f op tag pre act = s.mbxIgnore f := by
  rw [State.mbxChecked, mbxStart_busy live busy]
  rfl

theorem loadModel_busy (tag : Nat) (ok : Bool) (b : Blob) : s.loadModel f tag ok b = s.mbxIgnore f := by
  rw [State.loadModel, mbxLong_busy live busy, mbxStart_busy live busy]

theorem calCommit_busy (tag : Nat) (ok : Bool) : s.calCommit f tag ok = s.mbxIgnore f := by
  rw [State.calCommit, mbxChecked_busy live busy, mbxStart_busy live busy]

end Busy

theorem mbxIgnore_rd_other (s : State) {f a : Nat} (ignored : a ≠ Reg.mgmtMbxIgnored f) (err : a ≠ Reg.mgmtErr) (pba : a ≠ msixPba 0 1) :
    (s.mbxIgnore f).rd a = s.rd a := by
  rw [State.mbxIgnore, raise_rd _ _ err pba, rd_bump_other s _ ignored]

theorem mbxIgnore_count (s : State) (f : Nat) :
    (s.mbxIgnore f).rd (Reg.mgmtMbxIgnored f) = min (s.rd (Reg.mgmtMbxIgnored f) + 1) 0xFFFFFFFF := by
  have word := mbxWord_ignored f
  rw [State.mbxIgnore, raise_rd _ _ word.notErr word.notErrVector]
  exact rd_bump_same s _ 1

theorem mbxIgnore_state (s : State) (f : Nat) : (s.mbxIgnore f).mbxState f = s.mbxState f := by
  have word := mbxWord_status f
  have other : Reg.mgmtMbxStatus f ≠ Reg.mgmtMbxIgnored f := by simp [Reg.mgmtMbxStatus, Reg.mgmtMbxIgnored]
  rw [State.mbxState, State.fld, mbxIgnore_rd_other s other word.notErr word.notErrVector, State.mbxState, State.fld]

theorem mbxIgnore_sticky {s : State} (awake : s.pins.porLow = false) (f : Nat) : (s.mbxIgnore f).bitAt Reg.mgmtErr 3 = true :=
  raise_bit _ { idx := 0, unit := f, bit := 3 } awake (by decide : 3 < 32)

@[simp] theorem mbxIgnore_mem (s : State) (f : Nat) : (s.mbxIgnore f).mem = s.mem := by simp [State.mbxIgnore]
@[simp] theorem mbxIgnore_ecc (s : State) (f : Nat) : (s.mbxIgnore f).ecc = s.ecc := by simp [State.mbxIgnore]

/-- A command that comes to an ignored write. -/
theorem ends_mbxIgnore {s x : State} {f : Nat} (same : x = s.mbxIgnore f) : s.ends x = .next ((s.mbxIgnore f).finish s.pending) := by
  rw [same, State.ends]

/-- Settles O33: every mailbox command comes to the same ignored write, whose effect stands in the lemmas about `mbxIgnore`. -/
theorem busyMailboxIgnoresCommands : Obligations.BusyMailboxIgnoresCommands := by
  unfold Obligations.BusyMailboxIgnoresCommands
  intro s f tag c live busy command
  have ignored : exec c s = .next ((s.mbxIgnore f).finish s.pending) := by
    obtain rfl | rfl | rfl | rfl | rfl | rfl | rfl | rfl | rfl | rfl | ⟨ok, b, rfl⟩ | ⟨ok, b, rfl⟩ | ⟨ok, rfl⟩ | ⟨x, rfl⟩ | ⟨x, ok, b, b2, rfl⟩ := command
    · exact ends_mbxIgnore (mbxShort_busy live busy _ _ _)
    · exact ends_mbxIgnore (mbxShort_busy live busy _ _ _)
    · exact ends_mbxIgnore (mbxShort_busy live busy _ _ _)
    · exact ends_mbxIgnore (mbxShort_busy live busy _ _ _)
    · exact ends_mbxIgnore (mbxShort_busy live busy _ _ _)
    · exact ends_mbxIgnore (mbxShort_busy live busy _ _ _)
    · exact ends_mbxIgnore (mbxChecked_busy live busy _ _ _ _)
    · exact ends_mbxIgnore (mbxChecked_busy live busy _ _ _ _)
    · exact ends_mbxIgnore (mbxShort_busy live busy _ _ _)
    · exact ends_mbxIgnore (mbxChecked_busy live busy _ _ _ _)
    · exact ends_mbxIgnore (loadModel_busy live busy _ _ _)
    · exact ends_mbxIgnore (mbxChecked_busy live busy _ _ _ _)
    · exact ends_mbxIgnore (calCommit_busy live busy _ _)
    · exact ends_mbxIgnore (mbxLong_busy live busy _ _ _)
    · exact ends_mbxIgnore (mbxLong_busy live busy _ _ _)
  refine ⟨_, ignored, ?state, ?count, ?sticky, sameMem_finish (mbxIgnore_mem s f) (mbxIgnore_ecc s f), sameRegs_finish fun a sel _ => ?frame⟩
  case state => rw [State.mbxState, finish_fld _ _ _ _ (mbxWord_status f).notEnd, ← State.mbxState, mbxIgnore_state, busy]
  case count => rw [finish_rd _ _ (mbxWord_ignored f).notEnd, mbxIgnore_count]
  case sticky => rw [finish_bitAt _ _ _ (by decide), mbxIgnore_sticky (TimingAndPower.fnLive_porHigh live)]
  case frame =>
    obtain ⟨⟨count, err⟩, pba⟩ : (a ≠ Reg.mgmtMbxIgnored f ∧ a ≠ Reg.mgmtErr) ∧ a ≠ msixPba 0 1 := by simpa using sel
    exact mbxIgnore_rd_other s count err pba

/-! ### Register words in a row -/

theorem rd_wrWords_other (s : State) (a n v : Nat) {b : Nat} (outside : b < a ∨ a + 4 * n ≤ b) : (s.wrWords a n v).rd b = s.rd b := by
  induction n generalizing s a v with
  | zero => rfl
  | succ n ih => rw [State.wrWords, ih _ _ _ (by omega), rd_wr_other _ _ (by omega)]

/-- Words in a row read back what was written, as far as they hold it (R8). -/
theorem rdWords_wrWords_same (s : State) (a n v : Nat) : (s.wrWords a n v).rdWords a n = v % 2 ^ (32 * n) := by
  induction n generalizing s a v with
  | zero => rw [Nat.mul_zero, Nat.pow_zero, Nat.mod_one]; rfl
  | succ n ih =>
    have first : ((s.wr a v).wrWords (a + 4) n (v >>> 32)).rd a = v % 2 ^ 32 := by rw [rd_wrWords_other _ _ _ _ (by omega), rd_wr_same]
    rw [State.rdWords, State.wrWords, first, ih, Nat.shiftRight_eq_div_pow, Nat.mul_succ, Nat.add_comm (32 * n), Nat.pow_add, ← Nat.mod_mul]

@[simp] theorem wrWords_mem (s : State) (a n v : Nat) : (s.wrWords a n v).mem = s.mem := by
  induction n generalizing s a v with
  | zero => rfl
  | succ n ih => rw [State.wrWords, ih, wr_mem]

@[simp] theorem wrWords_ecc (s : State) (a n v : Nat) : (s.wrWords a n v).ecc = s.ecc := by
  induction n generalizing s a v with
  | zero => rfl
  | succ n ih => rw [State.wrWords, ih, wr_ecc]

/-! ### Commands that end at once (R345, Table 14.8) -/

/-- A mailbox as a command has taken it: BUSY with the tag. -/
def mbxTaken (s : State) (f tag : Nat) : State := s.wr (Reg.mgmtMbxStatus f) (1 + (tag % 256) <<< 8)

/-- NOP and GET_INFO, which every state of the device allows (R381, R382). -/
theorem mbxRefusal_none (s : State) (f : Nat) {op : Nat} (early : op = 0x00 ∨ op = 0x01) : s.mbxRefusal f op = none := by
  obtain rfl | rfl := early
  · simp [State.mbxRefusal, mbxKnown, mbxPfOnly, State.mbxAllowed, mbxDeviceWide]
  · simp [State.mbxRefusal, mbxKnown, mbxPfOnly, State.mbxAllowed, mbxDeviceWide]

theorem mbxStart_taken {s : State} {f op : Nat} (live : s.fnLive f = true) (free : s.mbxState f ≠ 1) (allowed : s.mbxRefusal f op = none)
    (tag : Nat) : s.mbxStart f op tag = (mbxTaken s f tag, true) := by
  rw [State.mbxStart, if_neg (by simp [live]), if_neg free, allowed]
  rfl

theorem mbxShort_taken {s : State} {f op : Nat} (live : s.fnLive f = true) (free : s.mbxState f ≠ 1) (allowed : s.mbxRefusal f op = none)
    (tag : Nat) (act : State → State × Nat × Nat) : s.mbxShort f op tag act =
      (act (mbxTaken s f tag)).1.mbxDone f (act (mbxTaken s f tag)).2.1 (act (mbxTaken s f tag)).2.2 := by
  rw [State.mbxShort, mbxStart_taken live free allowed]
  rfl

/-- The status at a command's end: DONE, the tag, the code, progress 100 (log entry 57). -/
theorem mbxDone_status (s : State) (f code result : Nat) : (s.mbxDone f code result).rd (Reg.mgmtMbxStatus f) =
    (2 + (s.fld (Reg.mgmtMbxStatus f) 8 8) <<< 8 + code <<< 16 + 100 <<< 24) % 2 ^ 32 := by
  have below : Reg.mgmtMbxStatus f < Reg.mgmtMbxResult f := by simp [Reg.mgmtMbxStatus, Reg.mgmtMbxResult]
  rw [State.mbxDone, msix_rd _ _ _ (mbxWord_status f).notEndVector, rd_wrWords_other _ _ _ _ (.inl below), rd_wr_same]

theorem mbxDone_result (s : State) (f code result : Nat) : (s.mbxDone f code result).rdWords (Reg.mgmtMbxResult f) 16 = result % 2 ^ 512 := by
  have message : ∀ x : State, (x.msix f 0).rdWords (Reg.mgmtMbxResult f) 16 = x.rdWords (Reg.mgmtMbxResult f) 16 := fun x =>
    StreamIngress.rdWords_congr fun _ hk => msix_rd _ _ _ (mbxWord_result f hk).notEndVector
  rw [State.mbxDone, message, rdWords_wrWords_same]

@[simp] theorem mbxDone_mem (s : State) (f code result : Nat) : (s.mbxDone f code result).mem = s.mem := by
  rw [State.mbxDone, msix_mem, wrWords_mem, wr_mem]
@[simp] theorem mbxDone_ecc (s : State) (f code result : Nat) : (s.mbxDone f code result).ecc = s.ecc := by
  rw [State.mbxDone, msix_ecc, wrWords_ecc, wr_ecc]

theorem finish_rdWords_result (s : State) (q : List Instr) (f : Nat) :
    (s.finish q).rdWords (Reg.mgmtMbxResult f) 16 = s.rdWords (Reg.mgmtMbxResult f) 16 :=
  StreamIngress.rdWords_congr fun _ hk => finish_rd s q (mbxWord_result f hk).notEnd

theorem mbxTaken_tag (s : State) (f : Nat) (tag : BitVec 8) : (mbxTaken s f tag.toNat).fld (Reg.mgmtMbxStatus f) 8 8 = tag.toNat := by
  rw [State.fld, mbxTaken, rd_wr_same, bits, Nat.shiftRight_eq_div_pow, Nat.shiftLeft_eq]
  omega

/-- A taken mailbox that ends OK: what the host reads, and memory as it was. -/
theorem mbxTaken_done_effect (s : State) (f : Nat) (tag : BitVec 8) (result : Nat) (q : List Instr) :
    (((mbxTaken s f tag.toNat).mbxDone f 0 result).finish q).rd (Reg.mgmtMbxStatus f) = 2 + 256 * tag.toNat + 100 * 2 ^ 24 ∧
      (((mbxTaken s f tag.toNat).mbxDone f 0 result).finish q).rdWords (Reg.mgmtMbxResult f) 16 = result % 2 ^ 512 ∧
      s.sameMem (((mbxTaken s f tag.toNat).mbxDone f 0 result).finish q) := by
  refine ⟨?status, by rw [finish_rdWords_result, mbxDone_result], sameMem_finish (by simp [mbxTaken]) (by simp [mbxTaken])⟩
  case status =>
    rw [finish_rd _ _ (mbxWord_status f).notEnd, mbxDone_status, mbxTaken_tag, Nat.shiftLeft_eq, Nat.shiftLeft_eq, Nat.shiftLeft_eq]
    omega

/-- GET_INFO reads its partition's image record and four registers. -/
theorem infoWords_congr {s t : State} {p : Nat} (cfg : t.cfg = s.cfg) (part : t.rd (Reg.safPart p) = s.rd (Reg.safPart p))
    (sync : t.rd (Reg.halRangeSync p) = s.rd (Reg.halRangeSync p)) (queue : t.rd (Reg.halRangeQueue p) = s.rd (Reg.halRangeQueue p))
    (watch : t.rd (Reg.halRangeWatch p) = s.rd (Reg.halRangeWatch p)) : t.infoWords p = s.infoWords p := by
  have sameClass : t.classS p = s.classS p := by rw [State.classS, State.bitAt, part, State.classS, State.bitAt]
  have record : ∀ byte lo len, t.partFld p byte lo len = s.partFld p byte lo len := fun _ _ _ => by rw [State.partFld, cfg, State.partFld]
  have sameRank : t.rank p = s.rank p := record 1 0 8
  unfold State.infoWords
  rw [sameClass, sameRank, record, sync, queue, watch]

/-- The status word of a mailbox lies apart from what GET_INFO reads. -/
theorem infoWords_mbxTaken (s : State) (f : Fin 16) (tag : Nat) : (mbxTaken s f tag).infoWords f = s.infoWords f := by
  have below := f.isLt
  have apart : Reg.safPart f ≠ Reg.mgmtMbxStatus f ∧ Reg.halRangeSync f ≠ Reg.mgmtMbxStatus f ∧ Reg.halRangeQueue f ≠ Reg.mgmtMbxStatus f
      ∧ Reg.halRangeWatch f ≠ Reg.mgmtMbxStatus f := by
    simp only [Reg.safPart, Reg.halRangeSync, Reg.halRangeQueue, Reg.halRangeWatch, Reg.mgmtMbxStatus, mbxBase, vfBase]
    split <;> omega
  obtain ⟨part, sync, queue, watch⟩ := apart
  exact infoWords_congr (wr_cfg ..) (rd_wr_other s _ part) (rd_wr_other s _ sync) (rd_wr_other s _ queue) (rd_wr_other s _ watch)

theorem exec_nop {s : State} (f : Fin 16) (tag : BitVec 8) (live : s.fnLive f = true) (free : s.mbxState f ≠ 1) :
    exec (.nop f tag) s = .next (((mbxTaken s f tag.toNat).mbxDone f 0 0).finish s.pending) :=
  congrArg s.ends (mbxShort_taken live free (mbxRefusal_none s f (.inl rfl)) tag.toNat _)

theorem exec_getInfo {s : State} (f : Fin 16) (tag : BitVec 8) (live : s.fnLive f = true) (free : s.mbxState f ≠ 1) :
    exec (.getInfo f tag) s = .next (((mbxTaken s f tag.toNat).mbxDone f 0 (s.infoWords f)).finish s.pending) := by
  rw [← infoWords_mbxTaken s f tag.toNat]
  exact congrArg s.ends (mbxShort_taken live free (mbxRefusal_none s f (.inr rfl)) tag.toNat _)

/-- Settles O34: both take the mailbox and end OK, and taking it changes nothing that GET_INFO reads (progress 100: log entry 57). -/
theorem nopAndGetInfoEndAtOnce : Obligations.NopAndGetInfoEndAtOnce := by
  unfold Obligations.NopAndGetInfoEndAtOnce
  intro s f tag live free
  have nopDone := mbxTaken_done_effect s f tag 0 s.pending
  rw [Nat.zero_mod] at nopDone
  exact ⟨⟨_, exec_nop f tag live free, nopDone⟩, ⟨_, exec_getInfo f tag live free, mbxTaken_done_effect s f tag (s.infoWords f) _⟩⟩

/-! ### The management bus (R351, Table 14.15) -/

/-- With its power up and POR_N released, the target answers from 20 ms on. -/
theorem smbusUp_eq {s : State} (on : s.pins.aonUp = true) (released : s.pins.porLow = false) : s.smbusUp = decide (20000000 ≤ s.now) := by
  rw [State.smbusUp, on, released]
  rfl

/-- An answer leaves the device and is all that a read changes. -/
theorem smbusRead_out {s : State} (on : s.pins.aonUp = true) (released : s.pins.porLow = false) (n v : Nat) :
    (s.smbusRead n v).out = (if 20000000 ≤ s.now then .smbus n v else .smbusNack) :: s.out := by
  rw [State.smbusRead, smbusUp_eq on released]
  simp [State.emit]

/-- Settles O36: each code is a read of its bytes and its value, and a read only sends its answer (none before 20 ms: log entry 77). -/
theorem smbusTargetAnswers : Obligations.SmbusTargetAnswers := by
  unfold Obligations.SmbusTargetAnswers
  intro s on released c n v code
  have answer : exec c s = s.ends (s.smbusRead n v) := by
    obtain ⟨rfl, rfl, value⟩ | ⟨rfl, rfl, value⟩ | ⟨rfl, rfl, value⟩ | ⟨k, rfl, rfl, value⟩ | ⟨rfl, rfl, value⟩ | ⟨rfl, rfl, value⟩
      | ⟨rfl, rfl, value⟩ | ⟨rfl, rfl, value⟩ | ⟨rfl, rfl, value⟩ | ⟨rfl, rfl, value⟩ | ⟨rfl, rfl, value⟩ | ⟨rfl, rfl, value⟩ := code
    all_goals
      rw [value]
      rfl
  exact ⟨_, answer, by rw [finish_out, smbusRead_out on released], sameMem_finish rfl rfl, finish_hostMem _ _, sameRegs_finish fun _ _ _ => rfl⟩

end Sys2Proof.HostEndpoint

/-!
# Start and restart: the state at reset, power off, units held in reset, the calibration shadows (R371, R372, R384, R393)

What the registers read at reset and after a loss of power, what a command of a held unit comes to, and the write of a calibration shadow, then the statements about them.
-/
namespace Sys2Proof.StartAndRestart
open Sys2Proof Sys2Proof.Machine Sys2Proof.Laws

/-! ### The state at reset (R371, R372) -/

theorem reset_regs : State.reset.regs = [(Reg.mgmtStatus, 0x40), (Reg.safStatus, 0x2)] := rfl

/-- Beside the two words that show FAULT_N, reset leaves every register at the value of its table. -/
theorem reset_rd {a : Nat} (notStatus : a ≠ Reg.mgmtStatus) (notSafety : a ≠ Reg.safStatus) : State.reset.rd a = (regReset a).toNat := by
  have unlisted : Tab.find State.reset.regs a = none := by
    simp [reset_regs, Tab.find, Ne.symm notStatus, Ne.symm notSafety]
  rw [State.rd, Tab.read, unlisted, Option.getD_none]

/-- FAULT_N in both status registers, safe hold in neither. -/
theorem reset_statusBits : State.reset.bitAt Reg.safStatus 1 = true ∧ State.reset.bitAt Reg.mgmtStatus 6 = true ∧
    State.reset.bitAt Reg.safStatus 4 = false ∧ State.reset.bitAt Reg.mgmtStatus 5 = false := by decide

/-- No table gives an error register a set bit, and none is a status register. -/
theorem errReg_resetValue : ∀ idx : Fin 19, ∀ u ∈ errUnits idx,
    errReg idx u ≠ Reg.mgmtStatus ∧ errReg idx u ≠ Reg.safStatus ∧ regReset (errReg idx u) = 0 := by decide

theorem reset_errReg (idx : Fin 19) {u : Nat} (isCopy : u ∈ errUnits idx) : State.reset.rd (errReg idx u) = 0 := by
  obtain ⟨notStatus, notSafety, zero⟩ := errReg_resetValue idx u isCopy
  exact (reset_rd notStatus notSafety).trans (congrArg BitVec.toNat zero)

/-- The summary of error registers that all read 0, with nothing captured (R436). -/
theorem errSummary_clear {s : State} (clear : ∀ idx : Fin 19, ∀ u ∈ errUnits idx, s.rd (errReg idx u) = 0)
    (uncaptured : s.bitAt Reg.errFirstStatus 0 = false) : s.errSummary = 0 := by
  unfold State.errSummary
  rw [uncaptured]
  refine Nat.add_eq_zero_iff.2 ⟨loopUp_keeps (fun n => n = 0) _ _ _ rfl fun idx n isIndex zero => ?_, rfl⟩
  have noBit : (errUnits idx).any (fun u => decide (s.rd (errReg idx u) ≠ 0)) = false := by
    simpa using clear ⟨idx, isIndex⟩
  rw [noBit, zero]
  simp [b2n]

/-- Settles O5: both status registers show FAULT_N without safe hold, and no error register holds a bit. -/
theorem resetShowsItsCopies : Obligations.ResetShowsItsCopies := by
  unfold Obligations.ResetShowsItsCopies
  obtain ⟨safFault, mgmtFault, safHold, mgmtHold⟩ := reset_statusBits
  have summary : State.reset.errSummary = 0 := errSummary_clear (fun idx _ isCopy => reset_errReg idx isCopy) (by decide)
  exact ⟨safFault, mgmtFault, mgmtHold.trans safHold.symm, (reset_rd (by decide) (by decide)).trans summary.symm⟩

theorem reset_now : State.reset.now = 0 := by decide

/-- Settles O6: each register reads the value of its table, and the state holds the rest as plain data. -/
theorem resetLeavesTheTableValues : Obligations.ResetLeavesTheTableValues := by
  unfold Obligations.ResetLeavesTheTableValues
  have increment : State.reset.rd64 Reg.tbIncr = 0x2800000000 := by
    rw [State.rd64, reset_rd (by decide) (by decide), reset_rd (by decide) (by decide)]
    decide
  exact ⟨reset_now, rfl, by decide, reset_rd (by decide) (by decide), increment, reset_rd (by decide) (by decide),
    reset_rd (by decide) (by decide), reset_rd (by decide) (by decide), reset_rd (by decide) (by decide),
    reset_rd (by decide) (by decide), rfl, rfl, rfl⟩

/-! ### Power off (R393) -/

theorem burnAtPowerLoss_none {s : State} (noBurn : s.sec.burn = none) : s.burnAtPowerLoss = s := by
  rw [State.burnAtPowerLoss, noBurn]

theorem calAtPowerLoss_none {s : State} (idle : s.mbxRun 0 = none) : s.calAtPowerLoss = s := by
  rw [State.calAtPowerLoss, idle]

/-- With no burn in progress, the loss of power leaves the fuses as they were. -/
theorem powerOff_sameFuses {s : State} (noBurn : s.sec.burn = none) (idle : s.mbxRun 0 = none) : s.sameFuses s.powerOff := by
  rw [State.powerOff, burnAtPowerLoss_none noBurn, calAtPowerLoss_none idle]
  exact ⟨rfl, rfl, rfl, rfl, rfl, rfl⟩

/-- Whatever was burning, the registers come back at their power-on values. -/
theorem powerOff_rd (s : State) (a : Nat) : s.powerOff.rd a = State.reset.rd a := rfl

theorem sameFuses_finish {s x : State} {q : List Instr} (kept : s.sameFuses x) : s.sameFuses (x.finish q) := by
  simpa [State.sameFuses] using kept

theorem exec_powerOff {s : State} (on : s.pins.aonUp = true) : exec .powerOff s = .next (s.powerOff.finish s.pending) := by
  rw [← whenOn_on State.powerOff on]
  rfl

/-- Settles O37: the state is that of reset but for the pins and the fuses, and neither burn was in progress. -/
theorem powerOffKeepsTheFusesAlone : Obligations.PowerOffKeepsTheFusesAlone := by
  unfold Obligations.PowerOffKeepsTheFusesAlone
  intro s on noBurn idle
  refine ⟨_, exec_powerOff on, ?time, finish_mem _ _, ?power, ?por, sameFuses_finish (powerOff_sameFuses noBurn idle), ?registers⟩
  case time =>
    rw [State.now, finish_tb]
    exact reset_now
  case power => rw [finish_pins]; rfl
  case por => rw [finish_pins]; rfl
  case registers => exact fun a notEnd => (finish_rd _ _ notEnd).trans (powerOff_rd s a)

/-! ### Units held in reset (R371, R441) -/

theorem whenLive_held {s : State} (held : s.live = false) (act : State → State) : s.whenLive act = s :=
  if_neg (by rw [held]; decide)

/-- Whatever its operation, a command of a held unit leaves the state to the end of the command (log entry 34). -/
theorem ends_whenLive_held {s : State} (held : s.live = false) (act : State → State) :
    s.ends (s.whenLive act) = .next (s.finish s.pending) := by
  rw [State.ends, whenLive_held held]

/-- Settles O40: each of the commands is one operation under the guard of the units that resets hold. -/
theorem heldUnitsIgnoreTheirEvents : Obligations.HeldUnitsIgnoreTheirEvents := by
  unfold Obligations.HeldUnitsIgnoreTheirEvents
  intro s held
  and_intros
  all_goals
    intros
    exact ends_whenLive_held held _

/-! ### Calibration shadows (R384, Table 16.4) -/

theorem endReg_secCalShadow (k : Fin 512) : endReg (Reg.secCalShadow k) = false := by
  simp only [endReg, Bool.or_eq_false_iff, Bool.and_eq_false_iff, decide_eq_false_iff_not]
  simp only [Reg.secCalShadow, Reg.safStatus, Reg.mgmtStatus, Reg.errSummary, Reg.halSyncValue]
  omega

/-- The shadow reads the bits of its format (Table 16.4). -/
theorem setShadow_rd_same (s : State) (k : Nat) (v : Word) : (s.setShadow k v.toNat).rd (Reg.secCalShadow k) = v.toNat &&& calMask k := by
  rw [State.setShadow, rd_wr_same]
  exact Nat.mod_eq_of_lt (Nat.and_le_left.trans_lt v.isLt)

theorem setShadow_rd_other (s : State) {k a : Nat} (v : Nat) (other : a ≠ Reg.secCalShadow k) : (s.setShadow k v).rd a = s.rd a :=
  rd_wr_other s _ other

theorem exec_secCalShadowWrite {s : State} (k : Fin 512) (v : Word) (live : s.fnLive 0 = true) :
    exec (.secCalShadowWrite k v) s = .next ((s.setShadow k v.toNat).finish s.pending) := by
  rw [← whenFn_live (fun x => x.setShadow k v.toNat) live]
  rfl

/-- Settles O44: the write changes its own register alone. -/
theorem calibrationShadowTakesItsFormat : Obligations.CalibrationShadowTakesItsFormat := by
  unfold Obligations.CalibrationShadowTakesItsFormat
  intro s k v live
  refine ⟨_, exec_secCalShadowWrite k v live, ?taken, sameMem_finish rfl rfl, sameOutside_finish rfl rfl, sameRegs_finish ?frame⟩
  case taken => rw [finish_rd _ _ (endReg_secCalShadow k), setShadow_rd_same]
  case frame => exact fun a apart _ => setShadow_rd_other s _ (of_decide_eq_false apart)

end Sys2Proof.StartAndRestart

/-!
# Security: requests for a fuse burn and their end (R399, R400)

A fuse request only answers in SEC_FUSE_STATUS and starts a burn or none; a burn that reads back well changes its own word. The two operations first, then the statements about them.
-/
namespace Sys2Proof.Security
open Sys2Proof Sys2Proof.Machine Sys2Proof.Laws

theorem endReg_secFuseStatus : endReg Reg.secFuseStatus = false := by decide

/-! ### A fuse request (R400, Tables 17.1, 17.2) -/

/-- SEC_FUSE_STATUS written, and the burn that then runs: all that a fuse request leaves. -/
def fuseAnswered (s : State) (status : Nat) (burn : Option (Nat × Nat)) : State :=
  { s.wr Reg.secFuseStatus status with sec := { s.sec with burn := burn } }

theorem fuseAnswered_status (s : State) (status : Nat) (burn : Option (Nat × Nat)) :
    (fuseAnswered s status burn).rd Reg.secFuseStatus = status % 2 ^ 32 := rd_wr_same s _ status

theorem fuseAnswered_rd_other (s : State) (status : Nat) (burn : Option (Nat × Nat)) {a : Nat} (other : a ≠ Reg.secFuseStatus) :
    (fuseAnswered s status burn).rd a = s.rd a := rd_wr_other s status other

theorem fuseAnswered_sameFuses (s : State) (status : Nat) (burn : Option (Nat × Nat)) : s.sameFuses (fuseAnswered s status burn) :=
  ⟨rfl, rfl, rfl, rfl, rfl, rfl⟩

theorem fuseAnswered_noBurn {s : State} (noBurn : s.sec.burn = none) (status : Nat) :
    fuseAnswered s status none = s.wr Reg.secFuseStatus status := by
  rw [fuseAnswered, ← noBurn]
  rfl

/-- What an operation burns: the requested slot, the words up to the rollback field of the image in force (never fewer than are burnt), or the JTAG disable word (Table 17.2). -/
def burnArgument (s : State) (op slot : Nat) : Nat :=
  if op = 1 then slot else if op = 2 then max s.sec.burnt (min 64 s.imageRollback) else 0

theorem fuseRequest_refused {s : State} {op slot confirm : Nat} (noBurn : s.sec.burn = none) (refused : s.fuseResult op slot confirm ≠ 0) :
    s.fuseRequest op slot confirm = fuseAnswered s (3 + 16 * s.fuseResult op slot confirm) none := by
  rw [State.fuseRequest, if_pos refused, noBurn, fuseAnswered_noBurn noBurn, Nat.shiftLeft_eq, Nat.mul_comm _ (2 ^ 4)]
  rfl

theorem fuseRequest_granted {s : State} {op slot confirm : Nat} (granted : s.fuseResult op slot confirm = 0) :
    s.fuseRequest op slot confirm = fuseAnswered s 1 (some (op, burnArgument s op slot)) :=
  if_neg (not_not_intro granted)

theorem fuseRequest_answers {s : State} (noBurn : s.sec.burn = none) (op slot confirm : Nat) :
    ∃ status burn, s.fuseRequest op slot confirm = fuseAnswered s status burn := by
  by_cases granted : s.fuseResult op slot confirm = 0
  · exact ⟨_, _, fuseRequest_granted granted⟩
  · exact ⟨_, _, fuseRequest_refused noBurn granted⟩

theorem fuseRequest_refused_effect {s : State} {op slot confirm r : Nat} (noBurn : s.sec.burn = none)
    (result : s.fuseResult op slot confirm = r) (refused : r ≠ 0) (inField : r < 16) (q : List Instr) :
    ((s.fuseRequest op slot confirm).finish q).rd Reg.secFuseStatus = 3 + 16 * r ∧ ((s.fuseRequest op slot confirm).finish q).sec.burn = none := by
  subst result
  rw [finish_rd _ _ endReg_secFuseStatus, finish_sec, fuseRequest_refused noBurn refused, fuseAnswered_status]
  exact ⟨Nat.mod_eq_of_lt (by omega), rfl⟩

theorem fuseRequest_granted_effect {s : State} {op slot confirm : Nat} (granted : s.fuseResult op slot confirm = 0) (q : List Instr) :
    ((s.fuseRequest op slot confirm).finish q).rd Reg.secFuseStatus = 1 ∧
      ((s.fuseRequest op slot confirm).finish q).sec.burn = some (op, burnArgument s op slot) := by
  rw [finish_rd _ _ endReg_secFuseStatus, finish_sec, fuseRequest_granted granted, fuseAnswered_status]
  exact ⟨rfl, rfl⟩

/-- For an operation of Table 17.2 with no burn under way, the checks of Table 17.1 in their order. -/
theorem fuseResult_eq {s : State} {op slot : Nat} (noBurn : s.sec.burn = none) (named : 1 ≤ op ∧ op ≤ 3) (confirm : BitVec 16) :
    s.fuseResult op slot confirm.toNat =
      if confirm ≠ 0x5EC0 then 1
      else if s.devState ≠ 5 ∨ s.sActive = true then 2
      else if s.calBurning = true then 3
      else if op = 1 ∧ ((s.fld Reg.secStatus 4 4).testBit slot = false ∨ s.imageSlot ≤ slot) then 4
      else 0 := by
  have unconfirmed : (confirm.toNat ≠ 0x5EC0 ∨ op = 0 ∨ 3 < op) ↔ confirm ≠ 0x5EC0 := by
    rw [or_iff_left (by omega : ¬(op = 0 ∨ 3 < op)), ne_eq, ne_eq, BitVec.toNat_eq]
    rfl
  simp only [State.fuseResult, unconfirmed, noBurn, Option.isSome_none, Bool.false_or]

/-- The three commands of Table 17.2 are one request each; the slot is an operand of REVOKE_SLOT alone. -/
theorem exec_fuseCommand {s : State} {c : Instr} {op : Nat} {slot : Fin 4} {confirm : BitVec 16} (live : s.fnLive 0 = true)
    (command : (c = .revokeSlot slot confirm ∧ op = 1) ∨ (c = .advanceRollback confirm ∧ op = 2) ∨ (c = .disableJtag confirm ∧ op = 3)) :
    ∃ k : Nat, exec c s = .next ((s.fuseRequest op k confirm.toNat).finish s.pending) ∧ (1 ≤ op ∧ op ≤ 3) ∧ (op = 1 → k = slot) := by
  obtain ⟨rfl, rfl⟩ | ⟨rfl, rfl⟩ | ⟨rfl, rfl⟩ := command
  · exact ⟨slot, congrArg s.ends (whenFn_live _ live), by decide, fun _ => rfl⟩
  · exact ⟨0, congrArg s.ends (whenFn_live _ live), by decide, fun h => absurd h (by decide)⟩
  · exact ⟨0, congrArg s.ends (whenFn_live _ live), by decide, fun h => absurd h (by decide)⟩

/-- Settles O41: each check of Table 17.1 is a branch of the request's result, and the answer changes SEC_FUSE_STATUS and the burn alone. -/
theorem fuseRequestsAreCheckedInOrder : Obligations.FuseRequestsAreCheckedInOrder := by
  unfold Obligations.FuseRequestsAreCheckedInOrder
  intro s slot confirm live noBurn c op command
  obtain ⟨k, ran, named, slotOf⟩ := exec_fuseCommand live command
  have result := fuseResult_eq (slot := k) noBurn named confirm
  obtain ⟨status, burn, answer⟩ := fuseRequest_answers noBurn op k confirm.toNat
  refine ⟨_, ran, ?memory, ?outside, ?fuses, ?frame, ?checks⟩
  case memory => rw [answer]; exact sameMem_finish rfl rfl
  case outside => rw [answer]; exact sameOutside_finish rfl rfl
  case fuses => rw [answer]; exact StartAndRestart.sameFuses_finish (fuseAnswered_sameFuses s status burn)
  case frame =>
    rw [answer]
    exact sameRegs_finish fun a apart _ => fuseAnswered_rd_other s status burn (of_decide_eq_false apart)
  case checks =>
    have sameSlot : (op = 1 ∧ ((s.fld Reg.secStatus 4 4).testBit k = false ∨ s.imageSlot ≤ k)) ↔
        (op = 1 ∧ ((s.fld Reg.secStatus 4 4).testBit slot = false ∨ s.imageSlot ≤ slot.val)) :=
      and_congr_right fun revoke => by rw [slotOf revoke]
    simp only [sameSlot] at result
    split_ifs at result ⊢
    case pos | pos | pos | pos => exact fuseRequest_refused_effect noBurn result (by decide) (by decide) _
    case neg =>
      obtain ⟨burning, runs⟩ := fuseRequest_granted_effect result s.pending
      exact ⟨burning, _, runs⟩

/-! ### The end of a burn (R399, R400) -/

@[simp] theorem showFuses_mem (s : State) : s.showFuses.mem = s.mem := by simp [State.showFuses]
@[simp] theorem showFuses_ecc (s : State) : s.showFuses.ecc = s.ecc := by simp [State.showFuses]
@[simp] theorem showFuses_sec (s : State) : s.showFuses.sec = s.sec := by simp [State.showFuses]

/-- The revocation word of a slot burnt, and no burn under way. -/
def slotRevoked (s : State) (slot : Nat) : State :=
  { s with sec := { s.sec with burn := none, revoked := s.sec.revoked ||| BitVec.ofNat 4 (2 ^ slot) } }

theorem slotRevoked_getLsbD (s : State) (slot k : Fin 4) :
    (slotRevoked s slot).sec.revoked.getLsbD k = (s.sec.revoked.getLsbD k || decide (k = slot)) := by
  have word : (BitVec.ofNat 4 (2 ^ slot.val)).getLsbD k = decide (k = slot) := by
    rw [BitVec.getLsbD_ofNat, Nat.testBit_two_pow, decide_eq_true k.isLt, Bool.true_and]
    exact decide_eq_decide.mpr (eq_comm.trans Fin.val_inj)
  rw [← word]
  exact BitVec.getLsbD_or

theorem fuseDone_revoked {s : State} {slot : Nat} (burning : s.sec.burn = some (1, slot)) :
    s.fuseDone true = (slotRevoked s slot).showFuses.wr Reg.secFuseStatus 2 := by
  rw [State.fuseDone, burning]
  rfl

theorem exec_fuseBurnComplete {s : State} (ok : Bool) (on : s.pins.aonUp = true) :
    exec (.fuseBurnComplete ok) s = .next ((s.fuseDone ok).finish s.pending) :=
  congrArg s.ends (whenOn_on (fun x => x.fuseDone ok) on)

/-- Settles O42: the burn adds the slot's bit to the revoked slots, and what it shows in the registers leaves the fuses. -/
theorem burnOfASlotRevokesIt : Obligations.BurnOfASlotRevokesIt := by
  unfold Obligations.BurnOfASlotRevokesIt
  intro s slot on burning
  have revoked : ((s.fuseDone true).finish s.pending).sec = (slotRevoked s slot).sec := by
    rw [finish_sec, fuseDone_revoked burning, wr_sec, showFuses_sec]
  refine ⟨_, exec_fuseBurnComplete true on, ?ended, ?status, ?memory, ?slots, ?count, ?jtag⟩
  case status =>
    rw [finish_rd _ _ endReg_secFuseStatus, fuseDone_revoked burning]
    exact rd_wr_same _ _ 2
  case memory =>
    rw [fuseDone_revoked burning]
    exact sameMem_finish ((wr_mem _ _ _).trans (showFuses_mem _)) ((wr_ecc _ _ _).trans (showFuses_ecc _))
  case slots => rw [revoked]; exact slotRevoked_getLsbD s slot
  case ended | count | jtag => rw [revoked]; rfl

end Sys2Proof.Security

/-!
# The end of every step: what commands answer, and the copies they leave (R435, Tables 13.12, 14.17)

Every command answers its effect with the end that all share, which leaves the queue and restores the registers that copy other state. A guard that is met leaves the effect of its operation.
-/
namespace Sys2Proof.StepEnd
open Sys2Proof Sys2Proof.Machine Sys2Proof.Laws

/-! ### Commands and steps all end alike -/

theorem step_frontCommand (c : Instr) (q : List Instr) (s : State) : step { s with pending := c :: q } = exec c { s with pending := q } := rfl

/-- Every arm of exec is an effect under the end of a command. -/
theorem exec_eq_ends (c : Instr) (s : State) : ∃ x, exec c s = s.ends x := by
  cases c <;> exact ⟨_, rfl⟩

/-- So is a REFCLK cycle, and with it every step. -/
theorem step_eq_finish (s : State) : ∃ (x : State) (q : List Instr), step s = .next (x.finish q) := by
  cases queue : s.pending with
  | nil => exact ⟨_, _, TimingAndPower.step_emptyQueue queue⟩
  | cons c rest =>
    obtain ⟨x, ran⟩ := exec_eq_ends c { s with pending := rest }
    exact ⟨x, rest, by rw [step, queue]; exact ran⟩

/-- Settles O1, by the definition of a step. -/
theorem stepRunsTheFrontCommand : Obligations.StepRunsTheFrontCommand := by
  unfold Obligations.StepRunsTheFrontCommand
  exact step_frontCommand

/-- Settles O3: the shared end sets the queue, and no effect stands outside it. -/
theorem everyCommandAnswersAndLeavesTheQueue : Obligations.EveryCommandAnswersAndLeavesTheQueue := by
  unfold Obligations.EveryCommandAnswersAndLeavesTheQueue
  intro c s
  obtain ⟨x, ran⟩ := exec_eq_ends c s
  exact ⟨_, ran, finish_pending x s.pending⟩

/-! ### Guards that are met -/

section Guards
variable {s : State}

theorem ends_whenOn (on : s.pins.aonUp = true) (act : State → State) : s.ends (s.whenOn act) = .next ((act s).finish s.pending) := by
  rw [State.ends, whenOn_on act on]

theorem ends_whenLive (live : s.live = true) (act : State → State) : s.ends (s.whenLive act) = .next ((act s).finish s.pending) := by
  rw [State.ends, whenLive_live act live]

theorem ends_whenFn {f : Nat} (answers : s.fnLive f = true) (act : State → State) : s.ends (s.whenFn f act) = .next ((act s).finish s.pending) := by
  rw [State.ends, whenFn_live act answers]

theorem ends_whenUp {f : Nat} (answers : s.fnLive f = true) (started : s.sec.started = true) (act : State → State) :
    s.ends (s.whenUp f act) = .next ((act s).finish s.pending) := by
  rw [State.ends, whenUp_up act answers started]

theorem ends_whenPor (low : s.pins.porLow = true) (act : State → State) : s.ends (s.whenPor act) = .next ((act s).finish s.pending) := by
  rw [State.ends, whenPor_low act low]

end Guards

/-! ### ERR_SUMMARY (R436) -/

/-- Of the error registers, ERR_PLN alone lies in the ERR block. -/
theorem errReg_place (idx unit : Nat) : errReg idx unit < 0x400000 ∨ errReg idx unit = 0x400020 ∨ 0x500000 ≤ errReg idx unit := by
  generalize place : errReg idx unit = a
  unfold errReg at place
  split at place <;> simp only [Reg.mgmtErr, Reg.ingCsiErr, Reg.ingEthErr, Reg.decErr, Reg.encErr, Reg.pfeErr, Reg.tcErr, Reg.memErr, Reg.errPln,
    Reg.trkErr, Reg.colErr, Reg.poolErr, Reg.halErr, Reg.ddrErr, Reg.safErr, Reg.tbErr, Reg.pwtErr, Reg.secErr, Reg.secBootErr] at place <;> omega

theorem errReg_ne_errSummary (idx unit : Nat) : errReg idx unit ≠ Reg.errSummary := by
  have place := errReg_place idx unit
  simp only [Reg.errSummary]
  omega

/-- The summary reads the error registers and the capture's valid bit, and so not itself. -/
theorem errSummary_congr {s t : State} (same : ∀ a, a ≠ Reg.errSummary → t.rd a = s.rd a) : t.errSummary = s.errSummary := by
  have errors : ∀ idx unit, t.rd (errReg idx unit) = s.rd (errReg idx unit) := fun idx unit => same _ (errReg_ne_errSummary idx unit)
  have valid : t.bitAt Reg.errFirstStatus 0 = s.bitAt Reg.errFirstStatus 0 := by rw [State.bitAt, same _ (by decide), State.bitAt]
  unfold State.errSummary
  rw [valid]
  simp only [errors]

/-- `n` bits summed at their places. -/
theorem loopUp_bits_lt (b : Nat → Bool) (n : Nat) : loopUp n (fun i x => x + b2n (b i) <<< i) 0 < 2 ^ n := by
  induction n with
  | zero => exact Nat.one_pos
  | succ n ih =>
    have place : b2n (b n) <<< n ≤ 2 ^ n := by
      rw [Nat.shiftLeft_eq]
      cases b n <;> simp [b2n]
    rw [loopUp, Nat.pow_succ]
    omega

theorem errSummary_lt (s : State) : s.errSummary < 2 ^ 32 := by
  have errors := loopUp_bits_lt (fun i => (errUnits i).any (fun u => decide (s.rd (errReg i u) ≠ 0))) 19
  have valid : b2n (s.bitAt Reg.errFirstStatus 0) <<< 31 ≤ 2 ^ 31 := by
    cases s.bitAt Reg.errFirstStatus 0 <;> decide
  unfold State.errSummary
  omega

/-! ### The copies (Tables 13.12, 14.17) -/

/-- FAULT_N and safe hold copied, before ERR_SUMMARY is. -/
def statusCopied (s : State) : State :=
  ((s.setFld Reg.safStatus 1 1 (b2n s.pins.faultN)).setFld Reg.mgmtStatus 6 1 (b2n s.pins.faultN)).setFld Reg.mgmtStatus 5 1 (s.fld Reg.safStatus 4 1)

theorem mirror_eq_statusCopied (s : State) : s.mirror = (statusCopied s).wr Reg.errSummary (statusCopied s).errSummary := rfl

theorem mirror_bitAt (s : State) {a : Nat} (i : Nat) (h : a ≠ Reg.errSummary) : s.mirror.bitAt a i = (statusCopied s).bitAt a i :=
  congrArg (bit · i) (rd_wr_other _ _ h)

theorem testBit_b2n (b : Bool) : (b2n b).testBit 0 = b := by cases b <;> rfl

theorem statusCopied_safFault (s : State) : (statusCopied s).bitAt Reg.safStatus 1 = s.pins.faultN := by
  rw [statusCopied, SafetyIsland.bitAt_setFld_other _ _ _ _ _ (by decide), SafetyIsland.bitAt_setFld_other _ _ _ _ _ (by decide),
    bitAt_setFld_same _ _ _ _ _ _ (by decide), if_pos (by decide), testBit_b2n]

theorem statusCopied_mgmtFault (s : State) : (statusCopied s).bitAt Reg.mgmtStatus 6 = s.pins.faultN := by
  rw [statusCopied, bitAt_setFld_same _ _ _ _ _ _ (by decide), if_neg (by decide), bitAt_setFld_same _ _ _ _ _ _ (by decide), if_pos (by decide),
    testBit_b2n]

theorem statusCopied_safeHold (s : State) : (statusCopied s).bitAt Reg.mgmtStatus 5 = s.bitAt Reg.safStatus 4 := by
  rw [statusCopied, bitAt_setFld_same _ _ _ _ _ _ (by decide), if_pos (by decide), State.fld, testBit_bits]
  rfl

/-- The four copies, in the order of their writes: none is undone by a later one. -/
theorem mirror_mirrored (s : State) : s.mirror.mirrored := by
  refine ⟨?safFault, ?mgmtFault, ?safeHold, ?summary⟩
  case safFault => rw [mirror_bitAt _ _ (by decide), statusCopied_safFault]; rfl
  case mgmtFault => rw [mirror_bitAt _ _ (by decide), statusCopied_mgmtFault]; rfl
  case safeHold => rw [mirror_bitAt _ _ (by decide), statusCopied_safeHold, SafetyIsland.mirror_safStatus_bit _ (by decide)]
  case summary =>
    have unmoved : s.mirror.errSummary = (statusCopied s).errSummary := errSummary_congr fun a other => rd_wr_other _ _ other
    rw [unmoved, mirror_eq_statusCopied, rd_wr_same]
    exact Nat.mod_eq_of_lt (errSummary_lt _)

/-- The copies speak of registers and pins alone. -/
theorem mirrored_congr {s t : State} (regs : t.regs = s.regs) (pins : t.pins = s.pins) (copied : s.mirrored) : t.mirrored := by
  have rd : ∀ a, t.rd a = s.rd a := fun a => by rw [State.rd, regs, State.rd]
  have bitAt : ∀ a i, t.bitAt a i = s.bitAt a i := fun a i => by rw [State.bitAt, rd, State.bitAt]
  simpa only [State.mirrored, rd, bitAt, pins, errSummary_congr fun a _ => rd a] using copied

/-- What follows the copies writes no register and no pin. -/
theorem finish_mirrored (s : State) (q : List Instr) : (s.finish q).mirrored := by
  have copied := mirror_mirrored s.settleResets
  rw [State.finish]
  generalize s.settleResets.mirror = x at copied ⊢
  exact mirrored_congr rfl rfl copied

/-- Settles O4: every step ends in the operation that writes the copies. -/
theorem copiesHoldAfterEveryStep : Obligations.CopiesHoldAfterEveryStep := by
  unfold Obligations.CopiesHoldAfterEveryStep
  intro s t stepped
  obtain ⟨x, q, ended⟩ := step_eq_finish s
  obtain rfl : x.finish q = t := by simpa [ended] using stepped
  exact finish_mirrored x q

end Sys2Proof.StepEnd

/-!
# The error record: arrivals, clears, PERST_N (R435 to R441, Tables 19.4, 19.5)

What an event that arrives leaves in the registers of the ERR block, what a clear of a sticky bit and of the capture change, and what PERST_N keeps, each followed by its statement.
-/
namespace Sys2Proof.ErrorRecord
open Sys2Proof Sys2Proof.Machine Sys2Proof.Laws

/-! ### Where the registers lie -/

theorem endReg_of_errBlock {a : Nat} (lo : 0x400000 ≤ a) (hi : a < 0x500000) (notSummary : a ≠ Reg.errSummary) : endReg a = false := by
  simp only [endReg, Bool.or_eq_false_iff, Bool.and_eq_false_iff, decide_eq_false_iff_not]
  simp only [Reg.safStatus, Reg.mgmtStatus, Reg.halSyncValue]
  omega

theorem endReg_errEventCnt {idx : Nat} (named : idx < 19) : endReg (Reg.errEventCnt idx) = false := by
  apply endReg_of_errBlock <;> simp only [Reg.errEventCnt, Reg.errSummary] <;> omega

theorem endReg_of_copy : ∀ idx : Fin 19, ∀ u ∈ errUnits idx, endReg (errReg idx u) = false := by decide

theorem endReg_errReg {idx : Fin 19} {unit : Fin 16} (isCopy : (errUnits idx).contains unit.val = true) : endReg (errReg idx unit) = false :=
  endReg_of_copy idx unit (List.contains_iff_mem.mp isCopy)

/-- A unit's events set the copy that serves it. -/
theorem errReg_errCopy (idx unit : Nat) : errReg idx (errCopy idx unit) = errReg idx unit := by
  unfold errReg
  split <;> rfl

/-! ### The three parts of an arrival (R436, R437) -/

/-- The event counted, by its register and in all. -/
def counted (s : State) (e : ErrEvent) : State := (s.bump (Reg.errEventCnt e.idx) 1).bump64 Reg.errTotal 1

/-- The event kept as the last. -/
def keptLast (s : State) (e : ErrEvent) : State := (s.wr Reg.errLastSrc e.src).wr64 Reg.errLastTb e.tb

theorem errArrive_parts (s : State) (e : ErrEvent) (tie : Bool) : s.errArrive e tie = keptLast ((counted s e).errCapture e tie) e := rfl

theorem counted_rd_other (s : State) (e : ErrEvent) {a : Nat} (count : a ≠ Reg.errEventCnt e.idx) (total : a ≠ Reg.errTotal)
    (total' : a ≠ Reg.errTotal + 4) : (counted s e).rd a = s.rd a := by
  rw [counted, State.bump64, rd_wr64_other _ _ total total', rd_bump_other _ _ count]

theorem counted_count (s : State) (e : ErrEvent) : (counted s e).rd (Reg.errEventCnt e.idx) = min (s.rd (Reg.errEventCnt e.idx) + 1) 0xFFFFFFFF := by
  rw [counted, State.bump64, rd_wr64_other, rd_bump_same]
  all_goals
    simp only [Reg.errEventCnt, Reg.errTotal]
    omega

theorem keptLast_rd_other (s : State) (e : ErrEvent) {a : Nat} (src : a ≠ Reg.errLastSrc) (tb : a ≠ Reg.errLastTb) (tb' : a ≠ Reg.errLastTb + 4) :
    (keptLast s e).rd a = s.rd a := by
  rw [keptLast, rd_wr64_other _ _ tb tb', rd_wr_other _ _ src]

theorem errCapture_armed {s : State} (armed : s.bitAt Reg.errFirstStatus 0 = false) (e : ErrEvent) (tie : Bool) :
    s.errCapture e tie = ((((s.wr Reg.errFirstSrc e.src).wr Reg.errFirstAux (s.errAux e)).wr64 Reg.errFirstAddr e.addr).wr64 Reg.errFirstTb e.tb).wr
      Reg.errFirstStatus (1 + 4 * b2n tie) := by
  rw [State.errCapture, armed]
  rfl

/-- Taken or not, a capture writes the registers of the first event alone. -/
theorem errCapture_rd_other (s : State) (e : ErrEvent) (tie : Bool) {a : Nat} (outside : a < 0x400004 ∨ 0x400020 ≤ a) :
    (s.errCapture e tie).rd a = s.rd a := by
  have status : a ≠ Reg.errFirstStatus := by simp only [Reg.errFirstStatus]; omega
  cases armed : s.bitAt Reg.errFirstStatus 0
  case true =>
    rw [State.errCapture, armed]
    exact rd_setFld_other s _ _ _ status
  case false =>
    rw [errCapture_armed armed, rd_wr_other _ _ status, rd_wr64_other, rd_wr64_other, rd_wr_other, rd_wr_other]
    all_goals
      simp only [Reg.errFirstSrc, Reg.errFirstAux, Reg.errFirstAddr, Reg.errFirstTb]
      omega

theorem errCapture_err (s : State) (e : ErrEvent) (tie : Bool) : (s.errCapture e tie).err = s.err := by
  unfold State.errCapture
  split
  · exact setFld_err s _ _ _ _
  · simp only [wr_err, wr64_err]

/-! ### A first event captured (R437) -/

theorem rd64_congr {s t : State} {a : Nat} (low : t.rd a = s.rd a) (high : t.rd (a + 4) = s.rd (a + 4)) : t.rd64 a = s.rd64 a := by
  rw [State.rd64, low, high, State.rd64]

section Armed
variable {s : State} (armed : s.bitAt Reg.errFirstStatus 0 = false) (e : ErrEvent)
include armed

theorem errCapture_status : (s.errCapture e false).rd Reg.errFirstStatus = 1 := by
  rw [errCapture_armed armed, rd_wr_same]
  rfl

theorem errCapture_src (tie : Bool) : (s.errCapture e tie).rd Reg.errFirstSrc = e.src % 2 ^ 32 := by
  rw [errCapture_armed armed, rd_wr_other _ _ (by decide), rd_wr64_other _ _ (by decide) (by decide), rd_wr64_other _ _ (by decide) (by decide),
    rd_wr_other _ _ (by decide), rd_wr_same]

theorem errCapture_tb (tie : Bool) (fits : e.tb < 2 ^ 64) : (s.errCapture e tie).rd64 Reg.errFirstTb = e.tb := by
  rw [errCapture_armed armed, rd64_congr (rd_wr_other _ _ (by decide)) (rd_wr_other _ _ (by decide)), rd64_wr64_same _ _ _ fits]

theorem errCapture_addr (tie : Bool) (fits : e.addr < 2 ^ 64) : (s.errCapture e tie).rd64 Reg.errFirstAddr = e.addr := by
  rw [errCapture_armed armed, rd64_congr (rd_wr_other _ _ (by decide)) (rd_wr_other _ _ (by decide)),
    rd64_congr (rd_wr64_other _ _ (by decide) (by decide)) (rd_wr64_other _ _ (by decide) (by decide)), rd64_wr64_same _ _ _ fits]

end Armed

/-! ### An arrival as a whole -/

theorem errArrive_err (s : State) (e : ErrEvent) (tie : Bool) : (s.errArrive e tie).err = s.err := by
  rw [errArrive_parts, keptLast, wr64_err, wr_err, errCapture_err, counted, bump64_err, bump_err]

theorem errArrive_count (s : State) (e : ErrEvent) (tie : Bool) :
    (s.errArrive e tie).rd (Reg.errEventCnt e.idx) = min (s.rd (Reg.errEventCnt e.idx) + 1) 0xFFFFFFFF := by
  rw [errArrive_parts, keptLast_rd_other, errCapture_rd_other, counted_count]
  all_goals
    simp only [Reg.errEventCnt, Reg.errLastSrc, Reg.errLastTb]
    omega

/-- The registers of the first event are the capture's. -/
theorem errArrive_rd_first (s : State) (e : ErrEvent) (tie : Bool) {a : Nat} (hi : a < 0x400020) :
    (s.errArrive e tie).rd a = ((counted s e).errCapture e tie).rd a := by
  rw [errArrive_parts, keptLast_rd_other] <;> simp only [Reg.errLastSrc, Reg.errLastTb] <;> omega

/-- An arrival leaves the error registers: their bits were set when the event was raised. -/
theorem errArrive_rd_errReg (s : State) {e : ErrEvent} (tie : Bool) (named : e.idx < 19) (idx unit : Nat) :
    (s.errArrive e tie).rd (errReg idx unit) = s.rd (errReg idx unit) := by
  have place := StepEnd.errReg_place idx unit
  generalize errReg idx unit = a at place ⊢
  obtain ⟨src, tb, tb'⟩ : a ≠ Reg.errLastSrc ∧ a ≠ Reg.errLastTb ∧ a ≠ Reg.errLastTb + 4 := by
    simp only [Reg.errLastSrc, Reg.errLastTb]
    omega
  obtain ⟨count, total, total'⟩ : a ≠ Reg.errEventCnt e.idx ∧ a ≠ Reg.errTotal ∧ a ≠ Reg.errTotal + 4 := by
    simp only [Reg.errEventCnt, Reg.errTotal]
    omega
  rw [errArrive_parts, keptLast_rd_other _ _ src tb tb', errCapture_rd_other _ _ _ (by omega),
    counted_rd_other _ _ count total total']

theorem counted_armed {s : State} (armed : s.bitAt Reg.errFirstStatus 0 = false) (e : ErrEvent) : (counted s e).bitAt Reg.errFirstStatus 0 = false := by
  have count : Reg.errFirstStatus ≠ Reg.errEventCnt e.idx := by simp only [Reg.errFirstStatus, Reg.errEventCnt]; omega
  rw [← armed, State.bitAt, counted_rd_other s e count (by decide) (by decide), State.bitAt]

/-! ### One event on its way -/

/-- No event on its way to the ERR block. -/
def noneWaiting (s : State) : State := { s with err := { s.err with pend := [] } }

theorem errorEvent_single {s : State} {e : ErrEvent} (waits : s.err.pend = [e]) : s.errorEvent [0] = (noneWaiting s).errArrive e false := by
  simp [State.errorEvent, waits, arrives, State.errTake, placeEvent, noneWaiting]

theorem errorEvent_nothingPicked (s : State) : s.errorEvent [] = s := by
  have all : ((List.range s.err.pend.length).zip s.err.pend).map (fun e => e.2) = s.err.pend := List.map_snd_zip (by simp)
  simp [State.errorEvent, State.errTake, all]

/-! ### A write of 1 to ERR_FIRST_STATUS.valid (R439, R440) -/

/-- The capture armed again: valid, more and tie cleared. -/
def rearmed (s : State) : State := s.setFld Reg.errFirstStatus 0 3 0

theorem rearmed_status (s : State) : (rearmed s).fld Reg.errFirstStatus 0 3 = 0 := fld_setFld_same s _ 0 3 0 (by decide)

theorem rearmed_armed (s : State) : (rearmed s).bitAt Reg.errFirstStatus 0 = false := by
  rw [rearmed, bitAt_setFld_same _ _ _ _ _ _ (by decide)]
  rfl

theorem rearmed_rd_other (s : State) {a : Nat} (h : a ≠ Reg.errFirstStatus) : (rearmed s).rd a = s.rd a := rd_setFld_other s _ _ _ h

theorem errFirstWrite_valid {v : Word} (valid : v.getLsbD 0 = true) (s : State) (picks : List Nat) :
    s.errFirstWrite v.toNat picks = (rearmed s).errorEvent picks := by
  rw [State.errFirstWrite, if_pos (show bit v.toNat 0 = true from valid), rearmed]

theorem exec_errFirstStatusWrite {s : State} (v : Word) (picks : List Nat) (answers : s.fnLive 0 = true) :
    exec (.errFirstStatusWrite v picks) s = .next ((s.errFirstWrite v.toNat picks).finish s.pending) :=
  StepEnd.ends_whenFn answers (·.errFirstWrite v.toNat picks)

/-- The state in which an event that arrives beside the write finds the ERR block. -/
def rearmedAlone (s : State) : State := noneWaiting (rearmed s)

theorem rearmedAlone_counted_armed (s : State) (e : ErrEvent) : (counted (rearmedAlone s) e).bitAt Reg.errFirstStatus 0 = false :=
  counted_armed (rearmed_armed s) e

theorem errFirstWrite_arrival {s : State} {e : ErrEvent} {v : Word} (valid : v.getLsbD 0 = true) (waits : s.err.pend = [e]) :
    s.errFirstWrite v.toNat [0] = (rearmedAlone s).errArrive e false := by
  rw [errFirstWrite_valid valid, errorEvent_single (show (rearmed s).err.pend = [e] from waits), rearmedAlone]

/-- R440: the write takes effect first, so that the event of the same handshake is counted and captured. -/
theorem errFirstWrite_arrival_effect {s : State} {e : ErrEvent} {v : Word} (answers : s.fnLive 0 = true) (valid : v.getLsbD 0 = true)
    (waits : s.err.pend = [e]) (named : e.idx < 19) (fits : e.tb < 2 ^ 64) :
    ∃ t, exec (.errFirstStatusWrite v [0]) s = .next t ∧ t.err.pend = [] ∧ t.rd Reg.errFirstStatus = 1 ∧ t.rd Reg.errFirstSrc = e.src % 2 ^ 32
      ∧ (e.addr < 2 ^ 64 → t.rd64 Reg.errFirstAddr = e.addr) ∧ t.rd64 Reg.errFirstTb = e.tb
      ∧ t.rd (Reg.errEventCnt e.idx) = min (s.rd (Reg.errEventCnt e.idx) + 1) 0xFFFFFFFF := by
  have armed := rearmedAlone_counted_armed s e
  refine ⟨_, exec_errFirstStatusWrite v [0] answers, ?_⟩
  rw [errFirstWrite_arrival valid waits, finish_err, finish_rd _ _ (a := Reg.errFirstStatus) (by decide),
    finish_rd _ _ (a := Reg.errFirstSrc) (by decide), finish_rd64 _ _ (a := Reg.errFirstAddr) (by decide) (by decide),
    finish_rd64 _ _ (a := Reg.errFirstTb) (by decide) (by decide), finish_rd _ _ (endReg_errEventCnt named)]
  refine ⟨by rw [errArrive_err]; rfl, ?status, ?src, fun addrFits => ?addr, ?tb, ?count⟩
  case status => rw [errArrive_rd_first _ _ _ (by decide), errCapture_status armed]
  case src => rw [errArrive_rd_first _ _ _ (by decide), errCapture_src armed]
  case addr => rw [rd64_congr (errArrive_rd_first _ _ _ (by decide)) (errArrive_rd_first _ _ _ (by decide)), errCapture_addr armed _ _ addrFits]
  case tb => rw [rd64_congr (errArrive_rd_first _ _ _ (by decide)) (errArrive_rd_first _ _ _ (by decide)), errCapture_tb armed _ _ fits]
  case count =>
    have other : Reg.errEventCnt e.idx ≠ Reg.errFirstStatus := by simp only [Reg.errEventCnt, Reg.errFirstStatus]; omega
    rw [errArrive_count, ← rearmed_rd_other s other]
    rfl

/-! ### A write of 1 to bits of an error register (R439, R440) -/

/-- The bits written 1 clear. -/
def bitsCleared (s : State) (a mask : Nat) : State := s.wr a (s.rd a &&& (0xFFFFFFFF - mask))

theorem bitsCleared_rd_same (s : State) (a mask : Nat) : (bitsCleared s a mask).rd a = s.rd a &&& (0xFFFFFFFF - mask) := by
  rw [bitsCleared, rd_wr_same]
  exact Nat.mod_eq_of_lt (Nat.and_le_left.trans_lt (rd_lt s a))

theorem bitsCleared_rd_other (s : State) {a b : Nat} (mask : Nat) (h : b ≠ a) : (bitsCleared s a mask).rd b = s.rd b := rd_wr_other s _ h

section Copy
variable {s : State} {idx : Fin 19} {unit : Fin 16} (isCopy : (errUnits idx).contains unit.val = true)
  (awake : s.unitsAsleep (errReg idx unit) = false)
include isCopy awake

theorem stickyClear_copy (mask : Word) (again : List ErrEvent) : s.stickyClear idx unit mask.toNat again =
    again.foldl (fun x e => if e.idx = idx.val ∧ errCopy idx e.unit = unit then x.raise e else x) (bitsCleared s (errReg idx unit) mask.toNat) := by
  have word : mask.toNat % 2 ^ 32 = mask.toNat := Nat.mod_eq_of_lt mask.isLt
  have named : ¬ (18 < idx.val ∨ (errUnits idx).contains unit.val = false) := by
    rintro (beyond | notCopy)
    · omega
    · exact absurd (isCopy.symm.trans notCopy) (by decide)
  rw [State.stickyClear, if_neg named, awake, word]
  rfl

theorem stickyClear_alone (mask : Word) : s.stickyClear idx unit mask.toNat [] = bitsCleared s (errReg idx unit) mask.toNat :=
  stickyClear_copy isCopy awake mask []

theorem stickyClear_event (mask : Word) {e : ErrEvent} (here : e.idx = idx ∧ errCopy idx e.unit = unit) :
    s.stickyClear idx unit mask.toNat [e] = (bitsCleared s (errReg idx unit) mask.toNat).raise e :=
  (stickyClear_copy isCopy awake mask [e]).trans (if_pos here)

end Copy

theorem exec_stickyBitClear {s : State} (idx : Fin 19) (unit : Fin 16) (mask : Word) (again : List EventFacts) (answers : s.fnLive 0 = true) :
    exec (.stickyBitClear idx unit mask again) s =
      .next ((s.stickyClear idx unit mask.toNat (again.map (fun e => eventOf e idx))).finish s.pending) :=
  StepEnd.ends_whenFn answers (·.stickyClear idx unit mask.toNat (again.map (fun e => eventOf e idx)))

/-- Settles O45: each write changes its own register, and the capture that is armed again takes the event that arrives. -/
theorem firstStatusWriteReArmsTheCapture : Obligations.FirstStatusWriteReArmsTheCapture := by
  unfold Obligations.FirstStatusWriteReArmsTheCapture
  intro s answers
  refine ⟨fun v valid => ?rearm, fun idx unit mask isCopy awake => ?clear, fun v e valid waits named fits => ?capture⟩
  case rearm =>
    refine ⟨_, exec_errFirstStatusWrite v [] answers, ?_⟩
    rw [errFirstWrite_valid valid, errorEvent_nothingPicked]
    refine ⟨by rw [finish_fld _ _ _ _ (by decide), rearmed_status], sameMem_finish rfl rfl, sameOutside_finish rfl rfl, finish_err _ _,
      sameRegs_finish fun a other _ => rearmed_rd_other s (of_decide_eq_false other)⟩
  case clear =>
    have apart : Reg.errFirstStatus ≠ errReg idx unit := by
      have place := StepEnd.errReg_place idx unit
      simp only [Reg.errFirstStatus]
      omega
    refine ⟨_, exec_stickyBitClear idx unit mask [] answers, ?_⟩
    rw [List.map_nil, stickyClear_alone isCopy awake, finish_rd _ _ (endReg_errReg isCopy), finish_rd _ _ (a := Reg.errFirstStatus) (by decide)]
    exact ⟨bitsCleared_rd_same s _ _, bitsCleared_rd_other s _ apart, sameMem_finish rfl rfl, sameOutside_finish rfl rfl,
      sameRegs_finish fun a other _ => bitsCleared_rd_other s _ (of_decide_eq_false other)⟩
  case capture =>
    obtain ⟨t, ran, _, status, src, _, time, _⟩ := errFirstWrite_arrival_effect answers valid waits named fits
    exact ⟨t, ran, status, src, time⟩

/-! ### A bit cleared and set in the same handshake (R440) -/

theorem exec_errorEvent {s : State} (picks : List Nat) (on : s.pins.aonUp = true) :
    exec (.errorEvent picks) s = .next ((s.errorEvent picks).finish s.pending) :=
  StepEnd.ends_whenOn on (·.errorEvent picks)

/-- One event on its way arrives: it is counted, and every error register stays. -/
theorem errorEvent_arrival_effect {s : State} {e : ErrEvent} (on : s.pins.aonUp = true) (waits : s.err.pend = [e]) (named : e.idx < 19) :
    ∃ u, exec (.errorEvent [0]) s = .next u ∧ u.err.pend = []
      ∧ (∀ (idx : Fin 19) (unit : Fin 16), (errUnits idx).contains unit.val = true → u.rd (errReg idx unit) = s.rd (errReg idx unit))
      ∧ u.rd (Reg.errEventCnt e.idx) = min (s.rd (Reg.errEventCnt e.idx) + 1) 0xFFFFFFFF := by
  refine ⟨_, exec_errorEvent [0] on, ?_⟩
  rw [errorEvent_single waits, finish_err, errArrive_err, finish_rd _ _ (endReg_errEventCnt named), errArrive_count]
  exact ⟨rfl, fun idx unit isCopy => by rw [finish_rd _ _ (endReg_errReg isCopy), errArrive_rd_errReg _ _ named]; rfl, rfl⟩

/-- The event of the handshake as it goes on its way. -/
def stamped (s : State) (e : EventFacts) (idx : Fin 19) : ErrEvent := { eventOf e idx with tb := s.now }

/-- A clear beside a new event of the same register: the event's bit reads 1 and the event is on its way; its count waits for its arrival. -/
theorem stickyBitClear_event_effect {s : State} {idx : Fin 19} {unit : Fin 16} {e : EventFacts} (answers : s.fnLive 0 = true)
    (noneOther : s.err.pend = []) (copy : unit.val = errCopy idx e.unit.toNat) (isCopy : (errUnits idx).contains unit.val = true)
    (awake : s.unitsAsleep (errReg idx unit) = false) (mask : Word) :
    ∃ t, exec (.stickyBitClear idx unit mask [e]) s = .next t ∧ t.bitAt (errReg idx unit) e.bit = true ∧ s.sameMem t
      ∧ t.err.pend = [stamped s e idx] ∧ t.pins = s.pins ∧ t.rd (Reg.errEventCnt idx) = s.rd (Reg.errEventCnt idx) := by
  have released : (bitsCleared s (errReg idx unit) mask.toNat).pins.porLow = false := by
    rw [bitsCleared, wr_pins, TimingAndPower.fnLive_porHigh answers]
  have reg : errReg (eventOf e idx).idx (eventOf e idx).unit = errReg idx unit := by
    rw [copy, errReg_errCopy]
    rfl
  obtain ⟨notReg, notPba⟩ : Reg.errEventCnt idx ≠ errReg idx unit ∧ Reg.errEventCnt idx ≠ msixPba 0 1 := by
    have place := StepEnd.errReg_place idx unit
    simp only [Reg.errEventCnt, msixPba, if_true]
    omega
  refine ⟨_, exec_stickyBitClear idx unit mask [e] answers, ?_⟩
  rw [List.map_singleton, stickyClear_event isCopy awake mask ⟨rfl, copy.symm⟩]
  refine ⟨?bit, sameMem_finish (raise_mem _ _) (raise_ecc _ _), ?pend, by rw [finish_pins, raise_pins]; rfl, ?count⟩
  case bit =>
    rw [finish_bitAt _ _ _ (endReg_errReg isCopy), ← reg]
    exact raise_bit _ _ released e.bit.isLt
  case pend =>
    rw [finish_err, raise_pend _ _ released, bitsCleared, wr_err, noneOther]
    rfl
  case count => rw [finish_rd _ _ (endReg_errEventCnt idx.isLt), raise_rd _ _ (reg ▸ notReg) notPba, bitsCleared_rd_other s _ notReg]

/-- Settles O46: the clear comes before the event, and the arrival counts what is on its way without a look at the register. -/
theorem stickyBitOutlivesItsClear : Obligations.StickyBitOutlivesItsClear := by
  unfold Obligations.StickyBitOutlivesItsClear
  intro s answers on
  refine ⟨fun idx unit mask e noneOther copy isCopy awake => ?clear, fun v e valid waits named addrFits fits => ?capture⟩
  case clear =>
    obtain ⟨t, ran, bitSet, mem, pend, pins, count⟩ := stickyBitClear_event_effect answers noneOther copy isCopy awake mask
    obtain ⟨u, arrived, gone, kept, counted⟩ := errorEvent_arrival_effect (by rw [pins, on]) pend idx.isLt
    refine ⟨t, ran, bitSet, mem, pend, u, arrived, gone, ?bit, ?count⟩
    case bit => rw [State.bitAt, kept idx unit isCopy, ← State.bitAt, bitSet]
    case count =>
      rw [← count]
      exact counted
  case capture =>
    obtain ⟨t, ran, gone, status, src, addr, time, count⟩ := errFirstWrite_arrival_effect answers valid waits named fits
    exact ⟨t, ran, gone, status, src, addr addrFits, time, count⟩

/-! ### Registers that a reset keeps -/

theorem find_filter_kept {α : Type} (t : Tab α) (p : Nat × α → Bool) {k : Nat} (kept : ∀ v, p (k, v) = true) :
    Tab.find (t.filter p) k = Tab.find t k := by
  induction t with
  | nil => rfl
  | cons e t ih =>
    obtain ⟨j, v⟩ := e
    by_cases here : j = k
    · subst here
      simp [List.filter, kept v, Tab.find]
    · cases listed : p (j, v) <;> simp [List.filter, listed, Tab.find, here, ih]

theorem clearSome_rd_kept (s : State) {sel : Nat → Bool} {a : Nat} (kept : sel a = false) : (s.clearSome sel).rd a = s.rd a := by
  have stays : Tab.find (s.clearSome sel).regs a = Tab.find s.regs a := find_filter_kept s.regs _ fun _ => by simp [kept]
  rw [State.rd, Tab.read, stays, State.rd, Tab.read]

/-! ### The end of a calibration burn (R386) -/

theorem calFinish_tb (s : State) (m : MboxRun) : (s.calFinish m).tb = s.tb := by
  unfold State.calFinish State.setFuseRow
  split
  · split <;> rfl
  · exact raise_tb s _

theorem calFinish_rd (s : State) (m : MboxRun) {a : Nat} (rows : a ≠ Reg.secCalRows) (err : a ≠ Reg.secBootErr) (pba : a ≠ msixPba 0 1) :
    (s.calFinish m).rd a = s.rd a := by
  unfold State.calFinish State.setFuseRow
  split
  · split <;> exact rd_wr_other _ _ rows
  · exact raise_rd s _ err pba

/-! ### The units outside the always-on domain (R342, R371) -/

/-- A calibration burn that is in progress ends before the reset. -/
def calEnded (s : State) : State :=
  match s.mbxRun 0 with
  | some m => if m.opcode = 0x31 then s.calFinish m else s
  | none => s

theorem calEnded_tb (s : State) : (calEnded s).tb = s.tb := by
  unfold calEnded
  split
  · split
    · exact calFinish_tb s _
    · rfl
  · rfl

theorem calEnded_rd (s : State) {a : Nat} (lo : 0x400000 ≤ a) (hi : a < 0x500000) : (calEnded s).rd a = s.rd a := by
  unfold calEnded
  split
  · split
    · have rows : a ≠ Reg.secCalRows := by simp only [Reg.secCalRows]; omega
      have err : a ≠ Reg.secBootErr := by simp only [Reg.secBootErr]; omega
      have pba : a ≠ msixPba 0 1 := by simp only [msixPba, if_true]; omega
      exact calFinish_rd s _ rows err pba
    · rfl
  · rfl

theorem keptReg_of_errBlock {a : Nat} (lo : 0x400000 ≤ a) (hi : a < 0x500000) : keptReg a = true := by
  simp [keptReg, lo, hi]

/-- What the reset clears: all but what only power-on clears and the temperature readings. -/
def resetClears (a : Nat) : Bool :=
  !(keptReg a || (decide (0x200030 ≤ a) && decide (a < 0x200034) || decide (0x200040 ≤ a) && decide (a < 0x200070)
    || decide (0x200100 ≤ a) && decide (a < 0x200300)))

theorem resetUnits_rd_clearSome (s : State) (a : Nat) : s.resetUnits.rd a = ((calEnded s).clearSome resetClears).rd a := rfl

theorem resetUnits_rd (s : State) {a : Nat} (lo : 0x400000 ≤ a) (hi : a < 0x500000) : s.resetUnits.rd a = s.rd a := by
  have stays : resetClears a = false := by simp [resetClears, keptReg_of_errBlock lo hi]
  rw [resetUnits_rd_clearSome, clearSome_rd_kept _ stays, calEnded_rd s lo hi]

theorem resetUnits_tb (s : State) : s.resetUnits.tb = s.tb := calEnded_tb s

/-! ### PERST_N (R372) -/

/-- The rails as PERST_N leaves them: the regulator default, but the low setpoints while thermal shutdown lasts (R42). -/
def railsAtPerst (s : State) : State :=
  if s.pwt.shutdown then (s.setRailMv 0 600).setRailMv 1 650 else (s.defaultRail 0).defaultRail 1

theorem defaultRail_rd_other (s : State) (k : Nat) {a : Nat} (h : a ≠ railReg k) : (s.defaultRail k).rd a = s.rd a := rd_wr_other s 800 h

theorem railsAtPerst_eq (s : State) : ∃ r o, railsAtPerst s = { s with regs := r, out := o } ∧
    ∀ a, a ≠ Reg.pwtVddArray → a ≠ Reg.pwtVddLogic → (railsAtPerst s).rd a = s.rd a := by
  unfold railsAtPerst
  split
  · refine ⟨_, _, rfl, fun a array logic => ?_⟩
    rw [TimingAndPower.setRailMv_rd_other _ 1 _ logic, TimingAndPower.setRailMv_rd_other _ 0 _ array]
  · refine ⟨_, _, rfl, fun a array logic => ?_⟩
    rw [defaultRail_rd_other _ 1 logic, defaultRail_rd_other _ 0 array]

/-- PERST_N low, and what the reset leaves of FAULT_N's release. -/
def perstLow (s : State) (releaseSet : BitVec 16) : State :=
  { s with pins := { s.pins with perstLow := true }, saf := { s.saf with releaseSet := releaseSet, hold := s.pwt.shutdown } }

/-- The cause HOST_RESET, where a class S partition was active. -/
def hostResetFault (s : State) : FaultReport := { cause := 0x16, subsys := 1, unit := 0, tb := s.now }

theorem perst_stages (s : State) : ∃ set, s.perst = (if s.sActive then (perstLow (railsAtPerst s.resetUnits) set).recordFault (hostResetFault s)
    else perstLow (railsAtPerst s.resetUnits) set).assertFaultN := ⟨_, rfl⟩

/-- A fault recorded or not: only registers of SAF change. -/
theorem recordFaultIf_eq (c : Bool) (s : State) (f : FaultReport) : ∃ r, (if c then s.recordFault f else s) = { s with regs := r } ∧
    ∀ a, 0x400000 ≤ a → (if c then s.recordFault f else s).rd a = s.rd a := by
  cases c
  case false => exact ⟨s.regs, rfl, fun _ _ => rfl⟩
  case true =>
    obtain ⟨r, recorded, frame⟩ := TimingAndPower.recordFault_eq s f
    refine ⟨r, recorded, fun a lo => ?_⟩
    apply frame <;> simp only [Reg.safFaultCnt, Reg.safFaultCause, Reg.safFaultTb] <;> omega

/-- Beside the reset of the units, PERST_N changes its pin, FAULT_N, the safety island's release set, the rails and registers below the ERR block. -/
theorem perst_eq (s : State) : ∃ r o f, s.perst = { s.resetUnits with
      regs := r, out := o, saf := f, pins := { s.resetUnits.pins with perstLow := true, faultN := true } } ∧
    ∀ a, 0x400000 ≤ a → s.perst.rd a = s.resetUnits.rd a := by
  obtain ⟨set, stages⟩ := perst_stages s
  obtain ⟨r₁, o, rails, frameRails⟩ := railsAtPerst_eq s.resetUnits
  obtain ⟨r₂, recorded, frameRecord⟩ := recordFaultIf_eq s.sActive (perstLow (railsAtPerst s.resetUnits) set) (hostResetFault s)
  obtain ⟨r₃, asserted, frameFaultN⟩ := TimingAndPower.assertFaultN_eq
    (if s.sActive then (perstLow (railsAtPerst s.resetUnits) set).recordFault (hostResetFault s) else perstLow (railsAtPerst s.resetUnits) set)
  refine ⟨r₃, o, _, by rw [stages, asserted, recorded, rails]; rfl, fun a lo => ?_⟩
  obtain ⟨time, time', status, mgmt⟩ : a ≠ Reg.safFaultNTb ∧ a ≠ Reg.safFaultNTb + 4 ∧ a ≠ Reg.safStatus ∧ a ≠ Reg.mgmtStatus := by
    simp only [Reg.safFaultNTb, Reg.safStatus, Reg.mgmtStatus]
    omega
  obtain ⟨array, logic⟩ : a ≠ Reg.pwtVddArray ∧ a ≠ Reg.pwtVddLogic := by
    simp only [Reg.pwtVddArray, Reg.pwtVddLogic]
    omega
  rw [stages, frameFaultN a time time' status mgmt, frameRecord a lo]
  exact frameRails a array logic

theorem exec_perstNAssert {s : State} (live : s.live = true) : exec .perstNAssert s = .next (s.perst.finish s.pending) :=
  StepEnd.ends_whenLive live State.perst

/-- Settles O38: the reset keeps the ERR block and TB, and what PERST_N does beside it lies below the block. -/
theorem errorRecordSurvivesPerst : Obligations.ErrorRecordSurvivesPerst := by
  unfold Obligations.ErrorRecordSurvivesPerst
  intro s live
  obtain ⟨r, o, f, only, frame⟩ := perst_eq s
  refine ⟨_, exec_perstNAssert live, by rw [finish_pins, only], by rw [finish_pins, only], ?memory, ?time, ?record⟩
  case memory => rw [finish_mem, only]; rfl
  case time => rw [finish_tb, only, resetUnits_tb]
  case record =>
    intro a lo hi notSummary
    rw [finish_rd _ _ (endReg_of_errBlock lo hi notSummary), frame a lo, resetUnits_rd s lo hi]

end Sys2Proof.ErrorRecord

/-!
# What each command answers (R32, R332, R371, R382)

Every command is one operation of the model under the guard of its units. The statements name it, command by command; what the operations do stands in the parts above.
-/
namespace Sys2Proof.CommandEffects
open Sys2Proof Sys2Proof.Machine Sys2Proof.StepEnd

/-- Settles O48: the always-on domain (R32) but for the request of a power domain and the write of the cap. -/
theorem powerCommandsHaveTheirEffect : Obligations.PowerCommandsHaveTheirEffect := by
  unfold Obligations.PowerCommandsHaveTheirEffect
  intro s
  exact ⟨
    TimingAndPower.exec_telltaleRead,
    fun beats on => ends_whenOn on (·.fuseeTick beats.toNat),
    fun rail on => ends_whenOn on (·.avsFailure rail),
    fun rail ok on => ends_whenOn on (·.avsRetry rail ok),
    fun rail on => ends_whenOn on (·.avsStatusFault rail),
    fun rail mv on => ends_whenOn on (·.railDeviation rail mv.toNat),
    fun rail mv on => ends_whenOn on (·.railLow rail mv.toNat),
    fun rail ok on => ends_whenOn on (·.avsStatusRetry rail ok),
    fun domain state live => ends_whenLive live (·.pdRequest domain state),
    fun domain on => ends_whenOn on (·.pdDone domain),
    fun mvA maA mvL maL on => ends_whenOn on (·.reefEvaluate mvA.toNat maA.toNat mvL.toNat maL.toNat),
    TimingAndPower.exec_pwtPowerCapWrite,
    fun ts on => ends_whenOn on (·.tempRead (ts.map BitVec.toNat)),
    fun k on => ends_whenOn on (·.sensorFail k),
    TimingAndPower.exec_thermalShutdown⟩

/-- Settles O49: the always-on time base (R32), its registers, and the lanes of a CSI-2 port. -/
theorem timeAndLaneCommandsHaveTheirEffect : Obligations.TimeAndLaneCommandsHaveTheirEffect := by
  unfold Obligations.TimeAndLaneCommandsHaveTheirEffect
  intro s
  exact ⟨
    fun copy on => ends_whenOn on (·.tbCopyDisagree copy),
    fun on => ends_whenOn on State.tbNoMajority,
    fun on => ends_whenOn on State.refclkLoss,
    TimingAndPower.exec_tbAdjRateWrite,
    fun v answers => ends_whenFn answers (·.writeAdjOffset v.toNat),
    TimingAndPower.exec_tbSetWrite,
    fun on => ends_whenOn on State.slewComplete,
    TimingAndPower.exec_timePpsEdge,
    fun port ulps hs deskew live => ends_whenLive live (·.csiUlps port ulps hs deskew)⟩

/-- Settles O50: the units of ingress under the guard of resets (R371), the classification entries under that of sleeping blocks (R382), and two mailbox commands under their own. -/
theorem ingressCommandsHaveTheirEffect : Obligations.IngressCommandsHaveTheirEffect := by
  unfold Obligations.IngressCommandsHaveTheirEffect
  intro s
  exact ⟨
    fun _ _ => rfl, fun _ _ => rfl,
    fun st live => ends_whenLive live (·.returnIdle st),
    fun port vc fn fixed dup live => ends_whenLive live (fun x => (x.csiFrameStart port vc fn.toNat fixed dup).afterClose x port vc),
    fun port vc dt wc crcOk fixed data dup live =>
      ends_whenLive live (fun x => (x.csiLinePacket port vc dt.toNat wc.toNat crcOk fixed data.val dup).afterLine x port vc),
    fun port vc crcOk fixed data live => ends_whenLive live (·.csiEmbedded port vc crcOk fixed data),
    fun port vc fixed live => ends_whenLive live (fun x => (x.csiFrameEnd port vc fixed).afterClose x port vc),
    fun port live => ends_whenLive live (·.csiHeaderBad port),
    fun port live => ends_whenLive live (·.csiSyncErr port),
    fun port up rate live => ends_whenLive live (·.ethLink port up rate),
    fun port fr live => ends_whenLive live (·.ethFrame port fr),
    fun st live => ends_whenLive live (·.packetLost st),
    fun st irap isRef live => ends_whenLive live (·.bpDecision st irap isRef),
    StreamIngress.exec_ingEthClassWrite,
    fun st e live => ends_whenLive live (·.pushAu st e),
    fun st ok data live => ends_whenLive live (·.pushReadDone st ok data.val)⟩

/-- Settles O51: decoders and the encoder under the guard of resets (R371), session registers under that of sleeping blocks (R382). -/
theorem decodeAndEncodeCommandsHaveTheirEffect : Obligations.DecodeAndEncodeCommandsHaveTheirEffect := by
  unfold Obligations.DecodeAndEncodeCommandsHaveTheirEffect
  intro s
  exact ⟨
    fun st info live => ends_whenLive live (·.pictureStart st info),
    fun d ns rows live => ends_whenLive live (·.blockRow d ns.toNat rows),
    fun d live => ends_whenLive live (·.rowLimit d),
    fun st live => ends_whenLive live (·.budgetExpiry st),
    fun st live => ends_whenLive live (·.dualCompare st),
    fun st live => ends_whenLive live (·.checkerLag st),
    DescriptorsInUse.exec_encSessDescWrite,
    fun _ n answers started => ends_whenUp answers started (·.encStart n),
    fun _ n answers started => ends_whenUp answers started (·.encStop n),
    fun _ n answers started => ends_whenUp answers started (·.encTrigger n),
    fun st typ live => ends_whenLive live (·.encEventTrigger st typ.toNat),
    fun n live => ends_whenLive live (·.encSourcePicture n),
    fun n live => ends_whenLive live (·.encRowStart n),
    fun n data live => ends_whenLive live (·.encSliceCoded n data),
    fun n live => ends_whenLive live (·.postWindow n),
    fun n live => ends_whenLive live (·.sourceLost n)⟩

/-- Settles O52: front ends and trackers under the guard of resets (R371), their descriptors under that of sleeping blocks (R382). -/
theorem frontEndAndTrackerCommandsHaveTheirEffect : Obligations.FrontEndAndTrackerCommandsHaveTheirEffect := by
  unfold Obligations.FrontEndAndTrackerCommandsHaveTheirEffect
  intro s
  exact ⟨
    DescriptorsInUse.exec_viewDescriptorWrite,
    fun st live => ends_whenLive live (·.frameStart st),
    fun fe live => ends_whenLive live (·.bandStart fe),
    fun fe live => ends_whenLive live (·.bandDone fe),
    fun fe live => ends_whenLive live (·.bandLimit fe),
    fun fe agree live => ends_whenLive live (·.bandCompare fe agree),
    fun st live => ends_whenLive live (·.trackerFrame st),
    fun st agree live => ends_whenLive live (·.trackerCompare st agree),
    fun st live => ends_whenLive live (·.trackerLimit st),
    DescriptorsInUse.exec_trackerDescWrite⟩

/-- Settles O53: every command of the cores and the planner under the guard of resets (R371). -/
theorem tileAndPlannerCommandsHaveTheirEffect : Obligations.TileAndPlannerCommandsHaveTheirEffect := by
  unfold Obligations.TileAndPlannerCommandsHaveTheirEffect
  intro s
  exact ⟨
    fun core pair d facts live => ends_whenLive live (·.writeTile core pair d facts),
    TilesAndScheduling.exec_escapementSlotStart,
    TilesAndScheduling.exec_tileIssue,
    TilesAndScheduling.exec_tileRejectResponse,
    fun core live => ends_whenLive live (·.waitsMet core),
    fun core b live => ends_whenLive live (·.loadDone core b),
    fun core stall live => ends_whenLive live (·.beatsDone core stall.toNat),
    fun core arr row col live => ends_whenLive live (·.wavefront core arr row col),
    fun core phase live => ends_whenLive live (·.seqParity core phase),
    fun core outs live => ends_whenLive live (·.epilogueDone core outs),
    fun core live => ends_whenLive live (·.tileClose core),
    fun core fwd live => ends_whenLive live (·.haloWrite core fwd),
    fun core live => ends_whenLive live (·.watchdog core),
    fun p live => ends_whenLive live (·.stepStart p),
    fun p num ext fits cut sigs live => ends_whenLive live (·.jobPlan p num ext fits cut.tiles cut.groups sigs)⟩

/-- Settles O54: units under the guard of resets (R371), registers under that of sleeping blocks (R382); SIGNAL chooses between the two by who signals. -/
theorem collectorAndHalyardCommandsHaveTheirEffect : Obligations.CollectorAndHalyardCommandsHaveTheirEffect := by
  unfold Obligations.CollectorAndHalyardCommandsHaveTheirEffect
  intro s
  exact ⟨
    fun port live => ends_whenLive live (·.stageRecord port),
    fun live => ends_whenLive live State.collectorTurn,
    fun st agree live => ends_whenLive live (·.releaseTurn st agree),
    fun st live => ends_whenLive live (·.closeTimeout st),
    fun q live => ends_whenLive live (·.stallTimeout q),
    FrameQueries.exec_colStrmQueryWrite,
    fun _ _ _ => rfl,
    SyncObjects.exec_reset,
    fun f w v answers started => ends_whenUp answers started (·.watchArm f w v.toNat),
    fun w ok data live => ends_whenLive live (·.watchCopyDone w ok data.val),
    fun f q word v answers started => ends_whenUp answers started (·.queueWrite f q word v.toNat),
    fun f q v answers started => ends_whenUp answers started (·.doorbell f q v.toNat)⟩

/-- Settles O55: units under the guard of resets (R371), registers under that of sleeping blocks (R382); SHARE, DROP and FREE choose between the two by the holder. -/
theorem poolAndMemoryCommandsHaveTheirEffect : Obligations.PoolAndMemoryCommandsHaveTheirEffect := by
  unfold Obligations.PoolAndMemoryCommandsHaveTheirEffect
  intro s
  exact ⟨
    fun tag holder pairs live => ends_whenLive live _,
    fun live => ends_whenLive live State.reservationGrant,
    fun live => ends_whenLive live State.reservationAged,
    fun _ _ _ _ _ => rfl,
    fun _ _ _ => rfl,
    fun _ _ _ => rfl,
    fun k v answers started => ends_whenUp answers started (·.poolThresholds k v.toNat),
    fun f h answers started => ends_whenUp answers started (·.bufQuery f h.toNat),
    MemoryRequests.exec_memoryAccess,
    fun holder index live => ends_whenLive live (·.dmaStarve holder.toNat index.toNat),
    MemoryRequests.exec_memDmaResumeWrite,
    fun ch again qs live => ends_whenLive live (·.alertN ch again qs),
    fun ch live => ends_whenLive live (·.ddrRefresh ch),
    MemoryRequests.exec_selfRefreshEntry,
    fun ch rank live => ends_whenLive live (·.zqCalibration ch rank),
    fun answers started => ends_whenUp answers started State.scrubStart,
    fun done answers started => ends_whenUp answers started (·.scrubAbort done.toNat),
    fun live => ends_whenLive live State.scrubDone⟩

/-- Settles O56: the always-on fault path (R32), pairs and tests under the guard of resets (R371), register writes under that of a function that answers (R332). -/
theorem safetyCommandsHaveTheirEffect : Obligations.SafetyCommandsHaveTheirEffect := by
  unfold Obligations.SafetyCommandsHaveTheirEffect
  intro s
  exact ⟨
    fun on => ends_whenOn on State.detectedFault,
    SafetyIsland.exec_controlPairMismatch,
    SafetyIsland.exec_heartbeatMissing,
    fun live => ends_whenLive live State.waitAudit,
    fun r ok live => ends_whenLive live (·.selfTestChunk r ok),
    fun r live => ends_whenLive live (·.testOverdue r),
    SafetyIsland.exec_faultNTestWrite,
    fun p vfs ctl answers => ends_whenFn answers (fun x => (x.processingStart p (vfs.map Fin.val) ctl).fireAllHeld p),
    fun p vfs live => ends_whenLive live (·.processingStop p (vfs.map Fin.val))⟩

/-- Settles O57: requests of functions that answer (R332), fetches under the guard of resets (R371); register writes, unmasking and the management bus guard themselves. -/
theorem hostCommandsHaveTheirEffect : Obligations.HostCommandsHaveTheirEffect := by
  unfold Obligations.HostCommandsHaveTheirEffect
  intro s
  exact ⟨
    HostEndpoint.exec_unsupportedRequest,
    fun _ _ _ _ => rfl,
    fun _ _ => rfl,
    fun f d3 answers => ends_whenFn answers (·.bmeClear f d3),
    fun p e live => ends_whenLive live (·.fetchJob p e),
    fun st e live => ends_whenLive live (·.roiFetch st e),
    fun q live => ends_whenLive live (·.fetchError q),
    fun f answers => ends_whenFn answers (·.ecrcFailure f),
    rfl, rfl, rfl, fun _ => rfl, rfl, rfl, rfl, rfl, rfl, rfl, rfl, rfl, fun _ => rfl, fun _ => rfl⟩

/-- Settles O58: the release of POR_N, the always-on start and power (R32, R371), resets of units that run. -/
theorem startCommandsHaveTheirEffect : Obligations.StartCommandsHaveTheirEffect := by
  unfold Obligations.StartCommandsHaveTheirEffect
  intro s
  exact ⟨
    fun src addr low => ends_whenPor low (fun x => x.burnAtPowerLoss.powerOn src addr),
    ErrorRecord.exec_perstNAssert,
    fun t on => ends_whenOn on (·.coldStart t),
    fun linkDown live => ends_whenLive live (·.hotReset linkDown),
    fun live => ends_whenLive live State.pfFlr,
    fun f live => ends_whenLive live (·.vfFlr f),
    fun t fault live => ends_whenLive live (·.restart t (fault.map BitVec.toNat)),
    StartAndRestart.exec_powerOff,
    fun on => ends_whenOn on (fun x => if x.pins.porLow then x else x.porAssert)⟩

/-- Settles O59: the mailbox guards its commands itself (R345), and only the end of a long one waits for the units (R371). -/
theorem mailboxCommandsHaveTheirEffect : Obligations.MailboxCommandsHaveTheirEffect := by
  unfold Obligations.MailboxCommandsHaveTheirEffect
  intro s
  exact ⟨
    fun _ _ => rfl, fun _ _ => rfl,
    fun _ _ _ _ => rfl,
    fun _ _ => rfl, fun _ _ => rfl, fun _ _ => rfl,
    fun _ _ _ _ => rfl,
    fun _ _ _ => rfl,
    fun _ _ _ => rfl,
    fun _ _ _ _ _ _ => rfl,
    fun _ _ => rfl, fun _ _ => rfl, fun _ _ => rfl,
    fun f live => ends_whenLive live (·.longEnd f)⟩

/-- Settles O60: register writes of a function that answers (R332), and the always-on fuses, challenge and ERR block (R32, R441). -/
theorem securityAndErrorCommandsHaveTheirEffect : Obligations.SecurityAndErrorCommandsHaveTheirEffect := by
  unfold Obligations.SecurityAndErrorCommandsHaveTheirEffect
  intro s
  exact ⟨
    StartAndRestart.exec_secCalShadowWrite,
    fun slot confirm answers => ends_whenFn answers (·.fuseRequest 1 slot confirm.toNat),
    fun confirm answers => ends_whenFn answers (·.fuseRequest 2 0 confirm.toNat),
    fun confirm answers => ends_whenFn answers (·.fuseRequest 3 0 confirm.toNat),
    Security.exec_fuseBurnComplete,
    fun on => ends_whenOn on State.challengeExpiry,
    fun v answers => ends_whenFn answers (·.jtagRelock v.toNat),
    ErrorRecord.exec_errorEvent,
    ErrorRecord.exec_stickyBitClear,
    ErrorRecord.exec_errFirstStatusWrite⟩

end Sys2Proof.CommandEffects
